-- ==== Sys2Proof/Word.lean ====
section
/-! DEFINITION. The byte, the only machine word of this block: every other quantity of the handbook is an integer
(00_scope.md, Units and ranges) and is held as a `Nat` or an `Int`. -/

namespace Sys2Proof

/-- One byte of a host frame, of a notice or of a stored place. -/
abbrev Byte := BitVec 8

end Sys2Proof
end

