-- ==== Sys2Proof/Config.lean ====
section
/-! DEFINITION. What the spec leaves open and the machine goes on with: free values, each an opaque constant applied to
the number of free values used before it (`State.freeUses`). Nothing can be proved about their values. -/

namespace Sys2Proof.Config

/-- What a write that did not complete left in its place (R179, R183: "the stored copy is as the store left it"); the
machine takes it modulo 3: the bytes before the write, its own bytes, or a copy whose check fails (R21, R150). DESIGN
CHOICE, safe: a free value (log entry 12). -/
opaque storeOutcome (use : Nat) : Nat

/-- Byte `i` of a copy whose check fails, left by a write that did not complete (R179). Free (log entry 12). -/
opaque storeLeft (use i : Nat) : Byte

/-- How many places an interrupted erase had cleared (R185); the machine takes it modulo 89. Free (log entry 13). -/
opaque eraseReached (use : Nat) : Nat

/-- Which of the timers due at one moment is taken first: the machine takes it modulo their number. Free (log entry 5). -/
opaque dueChoice (use : Nat) : Nat

/-- Whether a measured time that is no whole number of tenths is reported rounded up (R131, R178 state no rounding).
Free (log entry 7). -/
opaque tenthsRoundUp (milliseconds : Nat) : Bool

/-- The slab state that a stored state byte above 3 stands for, 0..3 by the machine's use of it (12 gives codes 0..3
alone). Free (log entry 27). -/
opaque slabStateCode (code : Nat) : Nat

/-- At which bit of its length, body and check fields a sender read a mismatch (R159; the row ATTEMPT_ABANDONED does not carry
it); the machine takes it modulo their number. Free (log entry 55). -/
opaque mismatchBit (use : Nat) : Nat

/-- At which recessive bit of its precedence field a sender lost the line to a notice that was then lost itself (R156, R158;
the row LOSS_OF_STEP does not carry that notice's precedence); the machine takes it modulo their number. Free (log entry
55). -/
opaque lostAtBit (use : Nat) : Nat

end Sys2Proof.Config
end

