-- ==== Sys2Proof/Machine/Bytes.lean ====
section
/-! DEFINITION. Byte order, signed fields and the 16-bit cyclic check (R186), with the saturating and rounding-up
arithmetic the chapters share (00_scope.md, Rounding and Saturation). -/

namespace Sys2Proof.Machine

/-- A one-byte field. -/
def u8 (n : Nat) : Byte := BitVec.ofNat 8 n

/-- A two-byte field, low byte first (12). -/
def le16 (n : Nat) : List Byte := [u8 n, u8 (n / 256)]

/-- A four-byte field, low byte first (12). -/
def le32 (n : Nat) : List Byte := [u8 n, u8 (n / 256), u8 (n / 65536), u8 (n / 16777216)]

/-- A signed two-byte field, two's complement, low byte first (12). -/
def le16s (n : Int) : List Byte := le16 (n % 65536).toNat

/-- The value of a two-byte field. -/
def get16 (a b : Byte) : Nat := a.toNat + 256 * b.toNat

/-- The value of a four-byte field. -/
def get32 (a b c d : Byte) : Nat := a.toNat + 256 * b.toNat + 65536 * c.toNat + 16777216 * d.toNat

/-- The value of a signed two-byte field. -/
def get16s (a b : Byte) : Int := if get16 a b < 32768 then (get16 a b : Int) else (get16 a b : Int) - 65536

/-- Byte `i` of a stored place; 0 past its end. -/
def byteAt (bs : List Byte) (i : Nat) : Nat := (bs.getD i 0).toNat

/-- The two-byte field at offset `i`. -/
def u16At (bs : List Byte) (i : Nat) : Nat := byteAt bs i + 256 * byteAt bs (i + 1)

/-- The four-byte field at offset `i`. -/
def u32At (bs : List Byte) (i : Nat) : Nat := u16At bs i + 65536 * u16At bs (i + 2)

/-- The bits of a byte, most significant first (12: the floor line sends them so). -/
def byteBits (b : Byte) : List Bool := [7, 6, 5, 4, 3, 2, 1, 0].map b.getLsbD

/-- R186: one covered bit. The register shifts one place toward its high end; when the bit shifted out differs from
the covered bit, 0x1021 is added modulo 2. -/
def checkBit (r : BitVec 16) (bit : Bool) : BitVec 16 :=
  if r.msb != bit then (r <<< 1) ^^^ 0x1021#16 else r <<< 1

/-- R186: the eight bits of a byte, most significant first. -/
def checkByte (r : BitVec 16) (b : Byte) : BitVec 16 := (byteBits b).foldl checkBit r

/-- The register after some bytes: `checkByte` byte by byte (`checkFrom_eq_foldl`). The match on the register's value only
lets the kernel evaluate it byte by byte. -/
def checkFrom (r : BitVec 16) : List Byte → BitVec 16
  | [] => r
  | b :: bs =>
    match (checkByte r b).toNat with
    | 0 => checkFrom 0#16 bs
    | n + 1 => checkFrom (BitVec.ofNat 16 (n + 1)) bs

/-- R186: the 16-bit cyclic check of some bytes, the register starting at all ones. -/
def checkOf (bs : List Byte) : BitVec 16 := checkFrom 0xFFFF#16 bs

/-- A stored place's bytes: its content and the check over them, low byte first (R186). -/
def withCheck (bs : List Byte) : List Byte := bs ++ le16 (checkOf bs).toNat

/-- R184: whether a stored place's check is good. -/
def goodCheck (bs : List Byte) : Bool :=
  2 ≤ bs.length && (checkOf (bs.take (bs.length - 2))).toNat == u16At bs (bs.length - 2)

/-- The largest 16-bit count. -/
def max16 : Nat := 65535

/-- The largest 32-bit count. -/
def max32 : Nat := 4294967295

/-- 00_scope.md, Saturation: an addition that would pass the maximum leaves the field there. -/
def satAdd (top a b : Nat) : Nat := min top (a + b)

/-- A 16-bit saturating count rises by one. -/
def bump16 (n : Nat) : Nat := satAdd max16 n 1

/-- A 32-bit saturating addition. -/
def add32 (a b : Nat) : Nat := satAdd max32 a b

/-- A quotient rounded up (00_scope.md, Rounding). -/
def ceilDiv (a b : Nat) : Nat := (a + b - 1) / b

/-- A value held within bounds: the nearer bound when it is outside (R98, R181). -/
def clampTo (lo hi v : Nat) : Nat := max lo (min hi v)

end Sys2Proof.Machine
end

