-- ==== Sys2Proof/Syntax.lean ====
section
/-! DEFINITION. The commands of the block: one constructor of `Instr` per row of spec/opcode_table.json, with the
row's operands. Numbers are the unsigned integers the layouts of 12 carry; `Int` where a layout says signed. -/

namespace Sys2Proof

/-- R4: the two kinds of defect. -/
inductive DefectKind where
  | void
  | fissure
  deriving DecidableEq, Repr

/-- R4: a defect, a kind and a rectangle in the slab's coordinates. -/
structure Defect where
  kind : DefectKind
  x : Nat
  y : Nat
  w : Nat
  h : Nat
  deriving DecidableEq, Repr

/-- A rectangle by its lower-left corner, width and height (00_scope.md, Units and ranges). -/
structure Rect where
  x : Nat
  y : Nat
  w : Nat
  h : Nat
  deriving DecidableEq, Repr, Inhabited

/-- R3: a slab's contents, the fields that travel in a SLAB notice and are stored. -/
structure SlabContents where
  cls : Nat
  thickness : Nat
  width : Nat
  height : Nat
  price : Nat
  parent : Option Nat
  defects : List Defect
  deriving DecidableEq, Repr, Inhabited

/-- R43: a piece entry. -/
structure PieceEntry where
  job : Nat
  rect : Rect
  deriving DecidableEq, Repr, Inhabited

/-- A segment entry as PLAN SEGMENTS carries it (12): signed endpoints, the mode byte, the piece index. -/
structure SegmentEntry where
  startX : Int
  startY : Int
  endX : Int
  endY : Int
  mode : Nat
  piece : Nat
  deriving DecidableEq, Repr

/-- R181: the settings of the configuration block, one copy of each (12: 46 bytes of fields). `rate` is the line rate
code (0 = 125, 1 = 250, 2 = 500 kbit/s); `makeup` is the fresh makeup byte (0 disabled). -/
structure ConfigFields where
  rate : Nat
  supply : Nat
  f0 : Nat
  fmin : Nat
  fmax : Nat
  overcut : Nat
  kerf : Nat
  hardness : List Nat
  qnom : Nat
  qmin : Nat
  machineRate : Nat
  priceRecycled : Nat
  priceFresh : Nat
  priceWear : Nat
  priceDisposal : Nat
  makeup : Nat
  freshLimit : Nat
  margin : Nat
  guard : Nat
  threshold : Nat
  hardLimit : Nat
  press : Nat
  purgeTime : Nat
  deriving DecidableEq, Repr

/-- R121: the two flow meters. -/
inductive Meter where
  | recycled
  | fresh
  deriving DecidableEq, Repr

/-- The frame select going inactive cut short: none; a command frame of which its kind byte alone had arrived, or its kind
and length bytes and `body` of its body bytes, not its last, `taken` commands having been taken since its length byte
arrived (R169); or,
in the read phase, the frame at the head of the outbound queue with its first `shifted` bytes shifted out (R174). -/
inductive CutFrame where
  | none
  | beforeLength
  | afterLength (kind length taken body : Nat)
  | reading (shifted : Nat)
  deriving DecidableEq, Repr

/-- The commands: one constructor per row of spec/opcode_table.json, in the table's order. -/
inductive Instr where
  /-- PIN_RESET (R179); `straps` is what the station straps read. -/
  | pinReset (straps : Nat)
  /-- TRANSACTION_START (R168). -/
  | transactionStart
  /-- INBOUND_FRAME (R169): a frame's kind, its body (its length byte is the body's length) and how many commands the
  link has taken since the length byte arrived, which is when it judged whether the frame fits (log entry 9). -/
  | inboundFrame (kind : Nat) (body : List Byte) (taken : Nat)
  /-- MALFORMED_FRAME (R170). -/
  | malformedFrame
  /-- SELECT_INACTIVE (R169, R174). -/
  | selectInactive (cut : CutFrame)
  /-- OUTBOUND_FRAME_READ (R174). -/
  | outboundFrameRead
  /-- ENTER_SLAB (R18). -/
  | enterSlab (cls thickness width height price : Nat) (defects : List Defect)
  /-- READ_SLAB (R19). -/
  | readSlab (slab : Nat)
  /-- LIST_SLABS (R20). -/
  | listSlabs (start : Nat)
  /-- TAKE (R25). -/
  | take (slab job : Nat)
  /-- GIVE (R36). -/
  | give (slab : Nat)
  /-- PLAN_HEAD (R45). -/
  | planHead (plan slab : Nat)
  /-- PLAN_PIECES (R46). -/
  | planPieces (pieces : List PieceEntry)
  /-- PLAN_REMNANTS (R47). -/
  | planRemnants (remnants : List Rect)
  /-- PLAN_SEGMENTS (R48). -/
  | planSegments (segments : List SegmentEntry)
  /-- PLAN_END (R49). -/
  | planEnd
  /-- DROP_PLAN (R63). -/
  | dropPlan
  /-- START_PLAN (R65). -/
  | startPlan
  /-- ABORT_PLAN (R86). -/
  | abortPlan
  /-- CONTINUE (R84). -/
  | continuePlan
  /-- SEGMENT_DONE (R75). -/
  | segmentDone (tag length time : Nat)
  /-- SEGMENT_PAUSED (R76). -/
  | segmentPaused (tag length time : Nat)
  /-- SEGMENT_FAULT (R77). -/
  | segmentFault (tag cause length time : Nat)
  /-- CLOSE_SLAB (R94). -/
  | closeSlab (slab mode job : Nat)
  /-- OPEN_JOB (R138). -/
  | openJob (job : Nat) (estimate : Option Nat)
  /-- CLOSE_JOB (R140). -/
  | closeJob (job : Nat)
  /-- FREE_JOB (R140). -/
  | freeJob (job : Nat)
  /-- READ_JOB (R139). -/
  | readJob (job : Nat)
  /-- PURGE_NOW (R134). -/
  | purgeNow
  /-- JOIN (R163). -/
  | join
  /-- READ_STATION (R177). -/
  | readStation
  /-- READ_PEERS (R178). -/
  | readPeers
  /-- SET_STATION (R180): the three bytes of its body. -/
  | setStation (first second number : Nat)
  /-- WRITE_CONFIG (R182). -/
  | writeConfig (fields : ConfigFields)
  /-- WRITE_CALIBRATION (R182). -/
  | writeCalibration (kRecycled kFresh : Nat)
  /-- STORE_ERASE (R185). -/
  | storeErase
  /-- RESTART (R179); `straps` is what the station straps read when the restart samples them, no part of the frame. -/
  | restart (straps : Nat)
  /-- POLL_RECEIVED (R23), from `station`. -/
  | pollReceived (station resource : Nat)
  /-- CLAIM_RECEIVED (R33). -/
  | claimReceived (station resource job : Nat)
  /-- RELEASE_RECEIVED (R34). -/
  | releaseReceived (station resource : Nat)
  /-- DEMAND_RECEIVED (R114). -/
  | demandReceived (station demand : Nat)
  /-- RETIRE_RECEIVED (R13). -/
  | retireReceived (station slab reason : Nat)
  /-- SLAB_RECEIVED (R11). -/
  | slabReceived (station slab : Nat) (contents : SlabContents)
  /-- HELLO_RECEIVED (R165). -/
  | helloReceived (station supply rate press : Nat)
  /-- CHECK_ERROR (R157): the kind, station number and first two body bytes as the receiver took them. -/
  | checkError (kind station resource : Nat)
  /-- FORMAT_ERROR (R155), with the same three. -/
  | formatError (kind station resource : Nat)
  /-- LOSS_OF_STEP (R156): a length above 64, or a dominant bit in the end marker. -/
  | lossOfStep
  /-- STUCK_LINE (R160). -/
  | stuckLine
  /-- RECEIVER_RESYNC (R156). -/
  | receiverResync
  /-- TRANSMIT_ATTEMPT (R161). -/
  | transmitAttempt
  /-- ATTEMPT_ABANDONED (R159). -/
  | attemptAbandoned
  /-- NOTICE_SENT (R159). -/
  | noticeSent
  /-- OWN_POLL_WINDOW (R27): bit k set when a station other than this part drove slot k dominant. -/
  | ownPollWindow (slots : BitVec 32)
  /-- SETTLE_TIMER_EXPIRY (R31), of the claim entry on `resource`. -/
  | settleTimerExpiry (resource : Nat)
  /-- LISTEN_IN_EXPIRY (R163). -/
  | listenInExpiry
  /-- ANNOUNCE_TIMER_EXPIRY (R16). -/
  | announceTimerExpiry
  /-- DEMAND_REFRESH_EXPIRY (R112). -/
  | demandRefreshExpiry
  /-- RESUME_DWELL_EXPIRY (R118). -/
  | resumeDwellExpiry
  /-- OVERRUN_EXPIRY (R87). -/
  | overrunExpiry
  /-- STOP_WAIT_EXPIRY (R88). -/
  | stopWaitExpiry
  /-- PURGE_TIMER_EXPIRY (R132). -/
  | purgeTimerExpiry
  /-- RETRY_TIMER_EXPIRY (R133). -/
  | retryTimerExpiry
  /-- PEER_LAPSE (R164), of the peer `station`. -/
  | peerLapse (station : Nat)
  /-- PEER_ABSENT (R164), of the peer `station`. -/
  | peerAbsent (station : Nat)
  /-- METER_PULSE (R121). -/
  | meterPulse (meter : Meter)
  /-- PRESS_DONE (R131). -/
  | pressDone
  /-- STORE_WRITE_DONE (R183). -/
  | storeWriteDone
  /-- STORE_WRITE_TIMEOUT (R183). -/
  | storeWriteTimeout
  /-- START_UP_END (R179). -/
  | startUpEnd
  /-- READ_MARKER (R168). -/
  | readMarker
  /-- FRAME_READ_BEGUN (R174). -/
  | frameReadBegun
  deriving DecidableEq, Repr

end Sys2Proof
end

