-- ==== Sys2Proof/Machine/State.lean ====
section
/-! DEFINITION. The machine's state: plain data, one structure per block of the part (00_scope.md, Inside the part),
with the queue of waiting commands, and the state when start-up has ended. Lines that are functions of other state
(valves, attention line, status byte) are worked in Machine/Flags.lean and not stored twice. -/

namespace Sys2Proof.Machine

/-- No rule of the handbook stops the part, so no meaning faults: there is no constructor. -/
inductive Fault where
  deriving DecidableEq, Repr

/-- Why a command is refused by the MODEL (a command the part refuses is answered REFUSED, a next state). -/
inductive Refusal where
  /-- Raised by an arm of exec whose row has no meaning yet. Safe: nothing is claimed of it. No arm uses it. -/
  | notModelled (mnemonic : String)
  deriving DecidableEq, Repr

/-- A timer: stopped, or running with so many milliseconds left. -/
abbrev Timer := Option Nat

/-! ### Slab register (01) -/

/-- R6: the record states. -/
inductive SlabState where
  | stock
  | cutting
  | cutOpen
  | gone
  deriving DecidableEq, Repr

/-- R3: a slab record. -/
structure SlabRecord where
  id : Nat
  contents : SlabContents
  state : SlabState
  holder : Option Nat
  heard : Nat
  deriving DecidableEq, Repr

/-- R16: the announce sweep, its cursor and the 100 ms timer to its next step. -/
structure Sweep where
  cursor : Nat
  timer : Nat
  deriving DecidableEq, Repr

/-- R2, R8, R9, R10, R11, R16: the slab register. -/
@[ext]
structure Register where
  places : List (Option SlabRecord)
  serial : Nat
  heard : Nat
  reservations : Nat
  discarded : Nat
  refused : Nat
  sweep : Option Sweep
  deriving DecidableEq, Repr

/-! ### Claim table (02) -/

/-- R22: what an entry claims for. -/
inductive ClaimPurpose where
  | slab (job : Nat)
  | press
  deriving DecidableEq, Repr

/-- R22: the stages. -/
inductive ClaimStage where
  | polling
  | tentative
  | held
  deriving DecidableEq, Repr

/-- R22: the entry's CLAIM notice. -/
inductive ClaimNotice where
  | unsent
  | queued
  | done
  deriving DecidableEq, Repr

/-- R22: a claim entry. `handle` is the model's own: it tells this entry's notices from an earlier entry's (R29). -/
structure ClaimEntry where
  handle : Nat
  resource : Nat
  purpose : ClaimPurpose
  stage : ClaimStage
  polls : Nat
  notice : ClaimNotice
  settle : Timer
  deriving DecidableEq, Repr

/-- R22, R33: the claim table. -/
@[ext]
structure ClaimTable where
  entries : List ClaimEntry
  conflicts : Nat
  nextHandle : Nat
  deriving DecidableEq, Repr

/-- R26, R39: the results a claim can reach. -/
inductive ClaimResult where
  | granted
  | heldElsewhere
  | claimLost
  | lineNoisy
  | muted
  deriving DecidableEq, Repr

/-! ### Plans (03, 04) -/

/-- A point in the slab's coordinates. -/
structure Point where
  x : Int
  y : Int
  deriving DecidableEq, Repr, Inhabited

/-- R44: RIP along x, CROSS along y. -/
inductive SegKind where
  | rip
  | cross
  deriving DecidableEq, Repr, Inhabited

/-- R44: a segment of a plan. `depth` is absent for THROUGH; `bevel` is set at 45 degrees. -/
structure Segment where
  kind : SegKind
  start : Point
  stop : Point
  depth : Option Nat
  bevel : Bool
  piece : Nat
  deriving DecidableEq, Repr, Inhabited

/-- R61: a job line of an estimate. -/
structure JobLine where
  job : Nat
  machine : Nat
  water : Nat
  wear : Nat
  disposal : Nat
  material : Nat
  deriving DecidableEq, Repr

/-- R61: an estimate. -/
structure Estimate where
  time : Nat
  water : Nat
  wear : Nat
  solids : Nat
  lines : List JobLine
  total : Nat
  deriving DecidableEq, Repr

/-- R42: a plan's contents, its estimate and the reservations held for it. -/
structure Plan where
  number : Nat
  slab : Nat
  pieces : List PieceEntry
  remnants : List Rect
  segments : List Segment
  estimate : Option Estimate
  reservations : Nat
  deriving DecidableEq, Repr

/-- The plan record of a slot that holds no plan. -/
def Plan.blank : Plan := ⟨0, 0, [], [], [], none, 0⟩

/-- R59: the item kinds. -/
inductive ItemKind where
  | slab
  | piece
  | remnant
  | segment
  | job
  deriving DecidableEq, Repr

/-- R59: the rejection record. -/
structure Rejection where
  check : Nat
  item : ItemKind
  index : Nat
  partner : Option (ItemKind × Nat)
  coordinate : Option Point
  defect : Option Nat
  deriving DecidableEq, Repr

/-- R62: why a staged plan went STALE. -/
inductive StaleCause where
  | changed
  | gone
  deriving DecidableEq, Repr

/-- 03, The staged slot: its five states, with what each holds. -/
inductive Staged where
  | empty
  | loading (plan : Plan)
  | valid (plan : Plan)
  | rejected (plan : Plan) (why : Rejection)
  | stale (plan : Plan) (cause : StaleCause)
  deriving DecidableEq, Repr

/-- R67: the states of the active slot. -/
inductive ActiveState where
  | empty
  | running
  | paused
  | ending
  | done
  | aborted
  deriving DecidableEq, Repr

/-- R67: the kinds of order. -/
inductive OrderKind where
  | new
  | resume
  deriving DecidableEq, Repr

/-- R67: the order record. `feed` and `water` are the feed limit and expected water last sent. -/
structure Order where
  tag : Nat
  kind : OrderKind
  segment : Nat
  start : Point
  stop : Point
  ordered : Nat
  depth : Nat
  expected : Nat
  feed : Nat
  water : Nat
  held : Bool
  stopped : Bool
  deriving DecidableEq, Repr

/-- R82, 12: the causes of a fault record, in the order of their codes. -/
inductive Cause where
  | bladeStall
  | operatorStop
  | axisLimit
  | bladeBroken
  | waterShort
  | sumpFull
  | machinePause
  | doubleFault
  | repeatedFault
  | overrun
  | hostAbort
  | duplicateStation
  deriving DecidableEq, Repr

/-- R82: the classes of a fault record. -/
inductive FaultClass where
  | fault
  | abort
  deriving DecidableEq, Repr

/-- R82: the origins of a fault record. -/
inductive Origin where
  | external
  | machine
  deriving DecidableEq, Repr

/-- R82: a fault record. -/
structure FaultRecord where
  cls : FaultClass
  cause : Cause
  prior : Option Cause
  plan : Nat
  segment : Nat
  kind : OrderKind
  reached : Point
  origin : Origin
  deriving DecidableEq, Repr

/-- R81: the pending-cause set, one mark per cause. -/
structure Pending where
  waterShort : Bool
  sumpFull : Bool
  bladeStall : Bool
  operatorStop : Bool
  machinePause : Bool
  deriving DecidableEq, Repr

/-- R81: the empty set. -/
def Pending.none : Pending := ⟨false, false, false, false, false⟩

/-- R67: the active slot. -/
@[ext]
structure Active where
  state : ActiveState
  plan : Plan
  order : Option Order
  resume : Option Point
  tag : Nat
  actual : Nat
  overrun : Timer
  stopWait : Timer
  pending : Pending
  fault : Option FaultRecord
  nextSeg : Nat
  faultCounts : List Nat
  charged : List Bool
  deriving DecidableEq, Repr

/-! ### Charge unit and water share unit (05, 06) -/

/-- R95: the two meter remainders. -/
@[ext]
structure Charge where
  recycled : Nat
  fresh : Nat
  deriving DecidableEq, Repr

/-- R125: the water share unit. -/
@[ext]
structure Water where
  own : Nat
  sigma : Nat
  allotment : Nat
  fresh : Nat
  effective : Nat
  segRecycled : Nat
  segFresh : Nat
  idleRecycled : Nat
  idleFresh : Nat
  dwell : Timer
  refresh : Timer
  deriving DecidableEq, Repr

/-! ### Sump account (07) -/

/-- R128: the purge states. -/
inductive PurgeState where
  | idle
  | wantPress
  | purging
  | retryWait
  deriving DecidableEq, Repr

/-- R126, R128: the sump account. -/
@[ext]
structure Sump where
  volume : Nat
  state : PurgeState
  snapshot : Nat
  purge : Timer
  retry : Timer
  deriving DecidableEq, Repr

/-! ### Cost table (08) -/

/-- R137: a job record. `closed` is its state; `machine` to `material` are the five cost components. -/
structure JobRecord where
  number : Nat
  closed : Bool
  estimate : Option Nat
  inUse : Nat
  segments : Nat
  inStone : Nat
  time : Nat
  recycled : Nat
  fresh : Nat
  wear : Nat
  solids : Nat
  area : Nat
  machine : Nat
  water : Nat
  wearCents : Nat
  disposal : Nat
  material : Nat
  total : Nat
  overEstimate : Bool
  saturated : Bool
  damaged : Bool
  deriving DecidableEq, Repr

/-! ### Floor line controller (09) -/

/-- R163: the attach states. -/
inductive Attach where
  | inert
  | listening
  | active
  | muted
  deriving DecidableEq, Repr

/-- R155: the notices a station hands to its controller. -/
inductive Notice where
  | poll (resource : Nat)
  | claim (resource job : Nat)
  | release (resource : Nat)
  | demand (value : Nat)
  | retire (slab reason : Nat)
  | slab (id : Nat) (contents : SlabContents)
  | hello (supply rate press : Nat)
  deriving DecidableEq, Repr

/-- R161: an entry of the transmit queue. `owner` is the handle of the claim entry that handed it, absent for the other
owners; `yielded` marks a CLAIM being sent whose entry has yielded (R30). -/
structure TxEntry where
  notice : Notice
  owner : Option Nat
  attempts : Nat
  age : Nat
  sending : Bool
  yielded : Bool
  deriving DecidableEq, Repr

/-- A POLL of this station whose response window is under way: whose it is, and the own slot as judged at its beginning
(R24). -/
structure OwnWindow where
  handle : Nat
  ownSlot : Bool
  deriving DecidableEq, Repr

/-- What the part drives in a response window it heard (R23, R157). -/
structure WindowDrive where
  resource : Nat
  ownSlot : Bool
  spoil : Bool
  deriving DecidableEq, Repr

/-- R161, R163, R167: the floor line controller less the peer table. `lineOut` holds the bits of the last attempt as this
station puts them on the line, 1 recessive (R154); of an attempt stopped, those through the bit at which it stopped (R158,
R159). -/
@[ext]
structure Floor where
  attach : Attach
  inStep : Bool
  listenIn : Timer
  queue : List TxEntry
  nextAge : Nat
  window : Option OwnWindow
  drive : Option WindowDrive
  lineOut : List Bool
  checkErrors : Nat
  formatErrors : Nat
  lostNotices : Nat
  lineFaults : Nat
  retryDrops : Nat
  backlogDrops : Nat
  deriving DecidableEq, Repr

/-- R164: presence. -/
inductive Presence where
  | absent
  | present
  | lapsed
  deriving DecidableEq, Repr

/-- R165: a peer's fingerprint. -/
structure Fingerprint where
  supply : Nat
  rate : Nat
  press : Nat
  deriving DecidableEq, Repr

/-- R164: a peer table entry. `heard` is the heard timer: milliseconds since the last valid notice, absent when
stopped. -/
structure Peer where
  presence : Presence
  demand : Nat
  heard : Option Nat
  fingerprint : Option Fingerprint
  busy : Bool
  deriving DecidableEq, Repr

/-- R164: an entry after either reset. -/
def Peer.absent : Peer := ⟨.absent, 0, none, none, false⟩

/-! ### Host link (10) -/

/-- The refusal reasons of 10, in the order of their codes 1..16. -/
inductive Reason where
  | state
  | range
  | badFrame
  | unknownSlab
  | slabGone
  | slabBusy
  | heldElsewhere
  | claimTableFull
  | registerFull
  | jobTableFull
  | jobNotOpen
  | jobInUse
  | noPlan
  | lineInert
  | muted
  | staleTag
  deriving DecidableEq, Repr

/-- A job's share of a settlement (R108, R109). -/
structure ShareLine where
  job : Nat
  area : Nat
  cents : Nat
  deriving DecidableEq, Repr

/-- 12: the result fields of an ACCEPTED reply. A CLOSE SLAB reply has a part byte, the number of lines in its first
frame, and up to five lines. -/
inductive Accepted where
  | bare
  | slabId (id : Nat)
  | number (n : Nat)
  | settlement (first : Option Nat) (lines : List ShareLine)
  deriving DecidableEq, Repr

/-- 12: the causes of a LINE FAULT trap. -/
inductive LineFaultCause where
  | retriesExhausted
  | stuckLine
  | duplicateStation
  deriving DecidableEq, Repr

/-- R92, 12: the traps with their fields, in the order of their codes 1..11. -/
inductive Trap where
  | lengthMismatch (tag reported ordered : Nat)
  | freshUsed (decilitres : Nat)
  | costOverEstimate (actual estimated : Nat)
  | unreportedPortion (tag : Nat)
  | jobOverEstimate (job estimate total : Nat)
  | saturated (job field : Nat)
  | purgeTimeout (press snapshot volume : Nat)
  | lineFault (cause : LineFaultCause) (kind : Nat)
  | lineBacklog (kind : Nat)
  | configSkew (station supply rate press : Nat)
  | registerDiscard (slab : Nat)
  deriving DecidableEq, Repr

/-- R178, 12: an entry of a PEER VIEW frame; `unused` marks this station's own number. -/
structure PeerEntry where
  unused : Bool
  presence : Presence
  busy : Bool
  demand : Nat
  heard : Option Nat
  fingerprint : Option Fingerprint
  deriving DecidableEq, Repr

/-- R177: what a STATION VIEW shows. -/
structure StationView where
  station : Option Nat
  attach : Attach
  clamped : Bool
  degraded : Bool
  overflow : Bool
  leftOut : Nat
  damaged : Nat
  sumpDefault : Bool
  serialDefault : Bool
  storeFaults : Nat
  idleRecycled : Nat
  idleFresh : Nat
  volume : Nat
  purge : PurgeState
  dropped : Nat
  truncated : Nat
  checkErrors : Nat
  formatErrors : Nat
  lostNotices : Nat
  lineFaults : Nat
  retryDrops : Nat
  backlogDrops : Nat
  conflicts : Nat
  discarded : Nat
  refused : Nat
  deriving DecidableEq, Repr

/-- 12: the report frames. A report of several frames has one constructor for its first frame and one for the others. -/
inductive Report where
  | accepted (command : Nat) (fields : Accepted)
  | refused (command : Nat) (reason : Reason)
  | slabRecordHead (record : SlabRecord)
  | slabRecordTail (id : Nat) (defects : List Defect)
  | slabList (entries : List (Nat × SlabState)) (more : Bool)
  | claimResult (slab job : Nat) (result : ClaimResult) (station : Option Nat) (polls : Nat)
  | planValid (plan : Nat) (estimate : Estimate)
  | planLine (plan : Nat) (line : JobLine)
  | planRejected (plan : Nat) (why : Rejection)
  | planStale (plan slab : Nat) (cause : StaleCause)
  | segmentOrder (order : Order) (bevel : Bool)
  | feedUpdate (tag segment feed water : Nat)
  | holdOrder (tag segment : Nat)
  | stopOrder (tag segment : Nat)
  | planComplete (plan slab : Nat) (remnants : List Nat) (actual lines : Nat)
  | completeLine (plan : Nat) (line : ShareLine)
  | planAborted (record : FaultRecord) (nextSeg charged actual : Nat)
  | trap (what : Trap) (plan : Nat) (segment : Option Nat)
  | fault (record : FaultRecord) (pending : Pending)
  | jobHead (record : JobRecord)
  | jobTail (record : JobRecord)
  | purgeReport (press purged volume tenths : Nat)
  | peerView (first : Nat) (entries : List PeerEntry)
  | stationView (view : StationView)
  deriving DecidableEq, Repr

/-- R169, R170: an entry of the inbound queue: a command frame, or the two bytes of a malformed one (its kind). -/
inductive Inbound where
  | frame (kind : Nat) (body : List Byte)
  | malformed (kind : Nat)
  deriving DecidableEq, Repr

/-- R172, R174: a frame of the outbound queue; `begun` once its first byte has been shifted out. -/
structure Outbound where
  report : Report
  begun : Bool
  deriving DecidableEq, Repr

/-- R168: where a transaction stands. `spent` is a transaction in which a reset was taken: the part takes nothing until
select goes inactive. -/
inductive Phase where
  | idle
  | write
  | read
  | spent
  deriving DecidableEq, Repr

/-- R168 to R176: the host link. `shiftOut` holds the bytes shifted out at the last event of the transaction (R168, R174), of
a report frame all those of this reading of it, from its first;
`emptyRead` whether the read phase has shifted out its empty frame, filler following it (R174). `taken` is the model's own
record of the sizes of the entries that have left the inbound queue since the last frame arrived or the transaction
began, the latest first: with it the fit of a frame is worked on what the queue held as its length byte arrived (R169,
log entry 9). -/
@[ext]
structure HostLink where
  startingUp : Bool
  phase : Phase
  inbound : List Inbound
  outbound : List Outbound
  overflow : Bool
  dropped : Nat
  truncated : Nat
  shiftOut : List Byte
  emptyRead : Bool
  taken : List Nat
  deriving DecidableEq, Repr

/-! ### Station, settings, store (11) -/

/-- R180: the straps as sampled, and the number set by SET STATION. -/
@[ext]
structure Station where
  straps : Nat
  setNumber : Option Nat
  deriving DecidableEq, Repr

/-- R181, R182: the settings read at start-up, and the two flags. -/
@[ext]
structure Settings where
  cfg : ConfigFields
  kRecycled : Nat
  kFresh : Nat
  clamped : Bool
  degraded : Bool
  deriving DecidableEq, Repr

/-- R183: the places an entry of the write queue can name, and the erase of R185. -/
inductive StorePlace where
  | slab (i : Nat)
  | job (i : Nat)
  | sump
  | serial
  | config
  | calibration
  | erase
  deriving DecidableEq, Repr

/-- R183: the write going out, with the contents taken when it began. -/
structure StoreWrite where
  place : StorePlace
  bytes : List Byte
  timer : Nat
  deriving DecidableEq, Repr

/-- R183, R184, R186: the external store's places, byte for byte, and the store controller. -/
@[ext]
structure Store where
  slabs : List (List Byte)
  jobs : List (List Byte)
  sump : List Byte
  serial : List Byte
  config : List Byte
  calibration : List Byte
  queue : List StorePlace
  inFlight : Option StoreWrite
  newConfig : Option ConfigFields
  newCalibration : Option (Nat × Nat)
  leftOut : Nat
  damaged : Nat
  sumpDefault : Bool
  serialDefault : Bool
  faults : Nat
  deriving DecidableEq, Repr

/-! ### The whole -/

/-- Everything the spec gives the part, the queue of waiting commands, and the count of free values used. -/
@[ext]
structure State where
  pending : List Instr
  station : Station
  settings : Settings
  host : HostLink
  floor : Floor
  peers : List Peer
  register : Register
  claims : ClaimTable
  staged : Staged
  active : Active
  charge : Charge
  water : Water
  sump : Sump
  jobs : List (Option JobRecord)
  store : Store
  freeUses : Nat
  deriving DecidableEq, Repr

/-! ### The blocks after either reset -/

/-- R167. -/
def Floor.reset : Floor := ⟨.inert, false, none, [], 0, none, none, [], 0, 0, 0, 0, 0, 0⟩

/-- R164. -/
def Peer.resetTable : List Peer := List.replicate 31 Peer.absent

/-- R21, with no record recovered and the serial at 1. -/
def Register.reset : Register := ⟨List.replicate 64 none, 1, 0, 0, 0, 0, none⟩

/-- R22. -/
def ClaimTable.reset : ClaimTable := ⟨[], 0, 0⟩

/-- R67. -/
def Active.reset : Active := ⟨.empty, Plan.blank, none, none, 0, 0, none, none, Pending.none, none, 0, [], []⟩

/-- R95. -/
def Charge.reset : Charge := ⟨0, 0⟩

/-- R125. -/
def Water.reset : Water := ⟨0, 0, 0, 0, 0, 0, 0, 0, 0, none, none⟩

/-- R128, with V at 0. -/
def Sump.reset : Sump := ⟨0, .idle, 0, none, none⟩

/-- R176, start-up having ended. -/
def HostLink.reset : HostLink := ⟨false, .idle, [], [], false, 0, 0, [], false, []⟩

/-- DESIGN CHOICE, unsafe (log entry 2): the store before the first power-up, every place written with zeros and a good
check ("An erased place is written with every byte 0 and a good check over them"), the serial counter with 1. -/
def Store.initial : Store where
  slabs := List.replicate 64 (List.replicate 61 0 ++ [110, 176])
  jobs := List.replicate 24 (List.replicate 63 0 ++ [101, 147])
  sump := [0, 0, 0, 0, 192, 132]
  serial := [1, 0, 62, 46]
  config := List.replicate 52 0 ++ [133, 70]
  calibration := [0, 0, 15, 29]
  queue := []
  inFlight := none
  newConfig := none
  newCalibration := none
  leftOut := 0
  damaged := 0
  sumpDefault := false
  serialDefault := false
  faults := 0

/-- R181, R182: what start-up makes of the block and region of `Store.initial`: every setting at its lower bound, and
CONFIG CLAMPED set. -/
def Settings.initial : Settings where
  cfg :=
    { rate := 0, supply := 10, f0 := 300, fmin := 100, fmax := 100, overcut := 0, kerf := 2
      hardness := [50, 50, 50, 50, 50, 50, 50, 50], qnom := 5, qmin := 1, machineRate := 0, priceRecycled := 0
      priceFresh := 0, priceWear := 0, priceDisposal := 0, makeup := 0, freshLimit := 0, margin := 0, guard := 0
      threshold := 1000, hardLimit := 2000, press := 0, purgeTime := 60 }
  kRecycled := 10
  kFresh := 10
  clamped := true
  degraded := false

/-- The part when start-up has ended after the first power-up, with the straps reading 0 (DESIGN CHOICE, unsafe, log
entries 1, 2 and 3): every block at the values its chapter gives for either reset. -/
def State.reset : State where
  pending := []
  station := ⟨0, none⟩
  settings := Settings.initial
  host := HostLink.reset
  floor := Floor.reset
  peers := Peer.resetTable
  register := Register.reset
  claims := ClaimTable.reset
  staged := .empty
  active := Active.reset
  charge := Charge.reset
  water := Water.reset
  sump := Sump.reset
  jobs := List.replicate 24 none
  store := Store.initial
  freeUses := 0

end Sys2Proof.Machine
end

