-- ==== Sys2Proof/Machine/Operands.lean ====
section
/-! DEFINITION. What the operands of commands mean and the ranges they are held to: slab and press ids (R1), record
contents (R3, R4), plan entries (R43, R44), job numbers, the station number in use (R180). -/

namespace Sys2Proof.Machine

/-- R1: a slab id is a station number 0..30 times 2048 plus a serial in 1..2047. -/
def isSlabId (n : Nat) : Bool := n ≤ 63487 && 0 < n % 2048

/-- R1: 65,528..65,535 name the filter presses 0..7. -/
def isPressId (n : Nat) : Bool := 65528 ≤ n && n ≤ 65535

/-- R1: press n is 65,528 + n. -/
def pressId (n : Nat) : Nat := 65528 + n

/-- R1: the station part of a slab id. -/
def originOf (id : Nat) : Nat := id / 2048

/-- R180: the station number in use. -/
def Station.number (t : Station) : Option Nat := if t.straps ≤ 30 then some t.straps else t.setNumber

/-- The station number in use, 0 where there is none (a station with none sends nothing and makes no record). -/
def State.own (s : State) : Nat := s.station.number.getD 0

/-- R1: a record is own-originated when the station part of its id equals the station's current number. -/
def State.isOwn (s : State) (id : Nat) : Bool := s.station.number == some (originOf id)

/-- R137: job numbers. -/
def isJobNumber (n : Nat) : Bool := 1 ≤ n && n ≤ 65535

/-- R4: a defect within the outline, with the least width and height its source allows (1 entered, 0 in a notice). -/
def defectFits (least width height : Nat) (d : Defect) : Bool :=
  least ≤ d.w && least ≤ d.h && d.x + d.w ≤ width && d.y + d.h ≤ height

/-- R3, R4: contents within their ranges. A parent that is named is a slab id. -/
def contentsInRange (least : Nat) (c : SlabContents) : Bool :=
  c.cls ≤ 7 && 10 ≤ c.thickness && c.thickness ≤ 60 && 100 ≤ c.width && c.width ≤ 4000 && 100 ≤ c.height
    && c.height ≤ 4000 && c.price ≤ 65535 && c.parent.all isSlabId && c.defects.length ≤ 6
    && c.defects.all (defectFits least c.width c.height)

/-- R43: a rectangle's coordinate limits. -/
def rectInRange (r : Rect) : Bool :=
  r.x ≤ 4000 && r.y ≤ 4000 && 1 ≤ r.w && r.w ≤ 4000 && 1 ≤ r.h && r.h ≤ 4000 && r.x + r.w ≤ 4000 && r.y + r.h ≤ 4000

/-- R43: a piece entry. -/
def pieceInRange (p : PieceEntry) : Bool := isJobNumber p.job && rectInRange p.rect

/-- R43: a remnant rectangle, at least 300 each way. -/
def remnantInRange (r : Rect) : Bool := rectInRange r && 300 ≤ r.w && 300 ≤ r.h

/-- 12: depth in bits 0..5 of the mode byte. -/
def depthField (e : SegmentEntry) : Nat := e.mode % 64

/-- R44: a coordinate of a segment's endpoint. -/
def coordInRange (v : Int) : Bool := -200 ≤ v && v ≤ 4200

/-- R44: a segment entry's limits at loading. -/
def segmentInRange (e : SegmentEntry) : Bool :=
  coordInRange e.startX && coordInRange e.startY && coordInRange e.endX && coordInRange e.endY && depthField e ≤ 60
    && e.piece ≤ 15

/-- R44, 12: the segment an entry describes: depth 0 is THROUGH, bit 6 the bevel, bit 7 the kind. -/
def entrySegment (e : SegmentEntry) : Segment where
  kind := if e.mode / 128 % 2 = 0 then .rip else .cross
  start := ⟨e.startX, e.startY⟩
  stop := ⟨e.endX, e.endY⟩
  depth := if depthField e = 0 then none else some (depthField e)
  bevel := e.mode / 64 % 2 = 1
  piece := e.piece

/-- 12: the cause a SEGMENT FAULT names; none for any other code (R74). -/
def causeOfCode : Nat → Option Cause
  | 1 => some .bladeStall
  | 2 => some .operatorStop
  | 3 => some .axisLimit
  | 4 => some .bladeBroken
  | _ => none

/-- R77: BLADE STALL and OPERATOR STOP are of FAULT class, AXIS LIMIT and BLADE BROKEN of ABORT class. -/
def Cause.isAbortClass : Cause → Bool
  | .axisLimit => true
  | .bladeBroken => true
  | _ => false

/-- R42, R141: a plan's distinct jobs, in order of first appearance in the piece list. -/
def distinctJobs (pieces : List PieceEntry) : List Nat :=
  pieces.foldl (fun acc p => if p.job ∈ acc then acc else acc ++ [p.job]) []

/-- A plan's segment at an index. -/
def Plan.segmentAt (p : Plan) (i : Nat) : Segment := p.segments.getD i default

/-- R44: the job of the piece that pays for a segment. -/
def Plan.jobOf (p : Plan) (g : Segment) : Nat := (p.pieces.getD g.piece default).job

end Sys2Proof.Machine
end

