-- ==== Sys2Proof/Machine/Geometry.lean ====
section
/-! DEFINITION. Rectangles on a slab: the usable region (R5), the gap between two items (R53), a segment's geometry and
kerf band (R54, R55), and the defects a remnant carries (R17). -/

namespace Sys2Proof.Machine

/-- A rectangle by its two x and its two y bounds, in signed coordinates. -/
structure Box where
  x0 : Int
  y0 : Int
  x1 : Int
  y1 : Int
  deriving DecidableEq, Repr

/-- The bounds of a rectangle. -/
def rectBox (r : Rect) : Box := ⟨r.x, r.y, (r.x : Int) + r.w, (r.y : Int) + r.h⟩

/-- The bounds of a defect's rectangle. -/
def defectBox (d : Defect) : Box := ⟨d.x, d.y, (d.x : Int) + d.w, (d.y : Int) + d.h⟩

/-- R5: two rectangles' interiors meet when each starts before the other ends on both axes. -/
def Box.meets (a b : Box) : Bool := a.x0 < b.x1 && b.x0 < a.x1 && a.y0 < b.y1 && b.y0 < a.y1

/-- The lower-left corner of the part two boxes share. -/
def Box.sharedCorner (a b : Box) : Point := ⟨max a.x0 b.x0, max a.y0 b.y0⟩

/-- A box grown by `k` on every side. -/
def Box.grow (k : Int) (b : Box) : Box := ⟨b.x0 - k, b.y0 - k, b.x1 + k, b.y1 + k⟩

/-- A box clipped to the outline 0..width by 0..height. -/
def Box.clip (width height : Nat) (b : Box) : Box := ⟨max 0 b.x0, max 0 b.y0, min width b.x1, min height b.y1⟩

/-- R5: a defect's excluded rectangle: a VOID's own, a FISSURE's grown by the guard and clipped to the outline. -/
def excludedBox (guard width height : Nat) (d : Defect) : Box :=
  match d.kind with
  | .void => defectBox d
  | .fissure => ((defectBox d).grow guard).clip width height

/-- R5: an excluded rectangle of zero width or height excludes nothing. -/
def Box.hasArea (b : Box) : Bool := b.x0 < b.x1 && b.y0 < b.y1

/-- R5: the corners of a rectangle, lower-left, lower-right, upper-right, upper-left. -/
def Box.corners (b : Box) : List Point := [⟨b.x0, b.y0⟩, ⟨b.x1, b.y0⟩, ⟨b.x1, b.y1⟩, ⟨b.x0, b.y1⟩]

/-- R5: a corner lies in the inset outline. -/
def insetHolds (margin width height : Nat) (p : Point) : Bool :=
  (margin : Int) ≤ p.x && p.x ≤ (width : Int) - margin && (margin : Int) ≤ p.y && p.y ≤ (height : Int) - margin

/-- R5: why a rectangle is not within the usable region: the coordinate, and the defect that excludes it if one does. -/
structure RegionFailure where
  coordinate : Point
  defect : Option Nat
  deriving DecidableEq, Repr

/-- R5: the first defect, from index `i` on, whose excluded rectangle a box meets. -/
def defectFailure (guard width height : Nat) (b : Box) : Nat → List Defect → Option RegionFailure
  | _, [] => none
  | i, d :: rest =>
      let e := excludedBox guard width height d
      if e.hasArea && b.meets e then some ⟨b.sharedCorner e, some i⟩
      else defectFailure guard width height b (i + 1) rest

/-- R5: the first failure of a rectangle against the usable region; none when it lies within. -/
def regionFailure (margin guard : Nat) (c : SlabContents) (r : Rect) : Option RegionFailure :=
  let b := rectBox r
  if c.width ≤ 2 * margin || c.height ≤ 2 * margin then some ⟨⟨b.x0, b.y0⟩, none⟩
  else match b.corners.find? (fun p => !insetHolds margin c.width c.height p) with
    | some p => some ⟨p, none⟩
    | none => defectFailure guard c.width c.height b 0 c.defects

/-- R53: the gap of two intervals along one axis; negative when they overlap. -/
def axisGap (a0 a1 b0 b1 : Int) : Int := max (b0 - a1) (a0 - b1)

/-- R53: a pair passes when either gap is at least the kerf. -/
def clearOf (kerf : Nat) (a b : Box) : Bool :=
  (kerf : Int) ≤ axisGap a.x0 a.x1 b.x0 b.x1 || (kerf : Int) ≤ axisGap a.y0 a.y1 b.y0 b.y1

/-- R55: a segment's kerf band in half millimetres, so that an odd kerf's edges are exact. -/
def kerfBand (kerf : Nat) (g : Segment) : Box :=
  let lo (a b : Int) := 2 * min a b
  let hi (a b : Int) := 2 * max a b
  match g.kind with
  | .rip => ⟨lo g.start.x g.stop.x, 2 * g.start.y - kerf, hi g.start.x g.stop.x, 2 * g.start.y + kerf⟩
  | .cross => ⟨2 * g.start.x - kerf, lo g.start.y g.stop.y, 2 * g.start.x + kerf, hi g.start.y g.stop.y⟩

/-- A rectangle's bounds in half millimetres. -/
def rectHalfBox (r : Rect) : Box := ⟨2 * r.x, 2 * r.y, 2 * ((r.x : Int) + r.w), 2 * ((r.y : Int) + r.h)⟩

/-- R97: the path length of a segment, along its axis. -/
def pathLength (kind : SegKind) (start stop : Point) : Nat :=
  match kind with
  | .rip => (stop.x - start.x).natAbs
  | .cross => (stop.y - start.y).natAbs

/-- R54: an endpoint within the run-in and run-out allowance of the slab. -/
def inAllowance (width height : Nat) (p : Point) : Bool :=
  -200 ≤ p.x && p.x ≤ (width : Int) + 200 && -200 ≤ p.y && p.y ≤ (height : Int) + 200

/-- R54: the coordinate of a segment's first breach of check 6; none when it passes. -/
def segmentFailure (c : SlabContents) (g : Segment) : Option Point :=
  let straight : Bool := match g.kind with
    | .rip => g.start.y == g.stop.y
    | .cross => g.start.x == g.stop.x
  if !straight then some g.start
  else if pathLength g.kind g.start g.stop < 1 then some g.start
  else if !inAllowance c.width c.height g.start then some g.start
  else if !inAllowance c.width c.height g.stop then some g.stop
  else if g.depth.any (c.thickness < ·) then some g.start
  else none

/-- R76: a point moved along the segment's axis by a length, toward the end. -/
def movedToward (kind : SegKind) (start stop : Point) (length : Nat) : Point :=
  match kind with
  | .rip => ⟨if start.x ≤ stop.x then start.x + length else start.x - length, start.y⟩
  | .cross => ⟨start.x, if start.y ≤ stop.y then start.y + length else start.y - length⟩

/-- R17: the part of a parent's defect that a remnant carries: where the closed rectangles meet, edges included,
translated to the remnant's corner. -/
def carriedDefect (r : Rect) (d : Defect) : Option Defect :=
  let x0 := max d.x r.x
  let y0 := max d.y r.y
  let x1 := min (d.x + d.w) (r.x + r.w)
  let y1 := min (d.y + d.h) (r.y + r.h)
  if x0 ≤ x1 ∧ y0 ≤ y1 then some ⟨d.kind, x0 - r.x, y0 - r.y, x1 - x0, y1 - y0⟩ else none

end Sys2Proof.Machine
end

