-- ==== Sys2Proof/Machine/ChargeUnit.lean ====
section
/-! DEFINITION. The arithmetic of The Segment Charge (R95 to R110): feed, time, water, wear, solids and cost of a
portion, the estimate, and the apportionment of a slab among jobs. Exact on integers, rounded where a rule says so. -/

namespace Sys2Proof.Machine

/-- R96: the effective depth of a segment on a slab of thickness `thickness`. -/
def effectiveDepth (thickness overcut : Nat) (g : Segment) : Nat :=
  let d := g.depth.getD (thickness + overcut)
  if g.bevel then ceilDiv (d * 1414) 1000 else d

/-- R97: the overlap of an interval with 0..limit, 0 when negative. -/
def overlapWith (lo hi : Int) (limit : Nat) : Nat := (min hi limit - max lo 0).toNat

/-- R97, R101: the part of a pass from one point to another that lies over the slab outline. -/
def inStoneLength (c : SlabContents) (kind : SegKind) (a b : Point) : Nat :=
  match kind with
  | .rip => if 0 ≤ a.y ∧ a.y ≤ c.height then overlapWith (min a.x b.x) (max a.x b.x) c.width else 0
  | .cross => if 0 ≤ a.x ∧ a.x ≤ c.width then overlapWith (min a.y b.y) (max a.y b.y) c.height else 0

/-- R98: the configured hardness of a material class. -/
def hardnessOf (cfg : ConfigFields) (cls : Nat) : Nat := cfg.hardness.getD cls 0

/-- R98: the base feed, clamped to Fmin..Fmax. -/
def baseFeed (cfg : ConfigFields) (depth cls : Nat) : Nat :=
  clampTo cfg.fmin cfg.fmax (cfg.f0 * 2000 / (depth * hardnessOf cfg cls))

/-- R99: the feed limit from the base feed and the effective water; absent (HOLD) when E is below Qmin. -/
def feedLimit (cfg : ConfigFields) (base effective : Nat) : Option Nat :=
  if effective < cfg.qmin then none
  else if cfg.qnom ≤ effective then some base
  else some (max cfg.fmin (base * effective / cfg.qnom))

/-- R100: the expected time, in tenths. -/
def expectedTime (ordered feed : Nat) : Nat := ceilDiv (ordered * 600) feed

/-- R100: the expected water, in decilitres. -/
def expectedWater (effective expected : Nat) : Nat := ceilDiv (effective * expected) 60

/-- R102: the wear units of a portion. -/
def wearUnits (cfg : ConfigFields) (cls inStone depth : Nat) : Nat :=
  ceilDiv (inStone * depth * hardnessOf cfg cls) 100000

/-- R103: the removed solids of a portion. -/
def removedSolids (cfg : ConfigFields) (inStone depth : Nat) : Nat := ceilDiv (inStone * cfg.kerf * depth) 1000

/-- R104: a meter's decilitres from its pulses and its remainder. -/
def meteredWater (pulses remainder k : Nat) : Nat := (pulses * 10 + remainder) / k

/-- R104: the remainder that conversion leaves. -/
def meterRemainder (pulses remainder k : Nat) : Nat := (pulses * 10 + remainder) % k

/-- R105: a portion record. -/
structure Portion where
  inStone : Nat
  time : Nat
  recycled : Nat
  fresh : Nat
  wear : Nat
  solids : Nat
  machine : Nat
  water : Nat
  wearCents : Nat
  disposal : Nat
  cost : Nat
  deriving DecidableEq, Repr

/-- R105: a figure handed on as a 32-bit count. -/
def sat32 (n : Nat) : Nat := min max32 n

/-- R102 to R105: a portion's record from its in-stone length, effective depth, time and metered water. -/
def portionOf (cfg : ConfigFields) (cls depth inStone time recycled fresh : Nat) : Portion :=
  let u := wearUnits cfg cls inStone depth
  let v := removedSolids cfg inStone depth
  let machine := ceilDiv (time * cfg.machineRate) 36000
  let water := ceilDiv (recycled * cfg.priceRecycled + fresh * cfg.priceFresh) 1000
  let wearCents := u * cfg.priceWear
  let disposal := ceilDiv (v * cfg.priceDisposal) 1000
  { inStone := sat32 inStone, time := sat32 time, recycled := sat32 recycled, fresh := sat32 fresh, wear := sat32 u
    solids := sat32 v, machine := sat32 machine, water := sat32 water, wearCents := sat32 wearCents
    disposal := sat32 disposal, cost := sat32 (machine + water + wearCents + disposal) }

/-! ### Sharing the slab among jobs -/

/-- R107: a rectangle's area in square centimetres. -/
def areaOf (w h : Nat) : Nat := w * h / 100

/-- R107: P_j, the area of a job's pieces. -/
def jobArea (pieces : List PieceEntry) (job : Nat) : Nat :=
  ((pieces.filter (·.job == job)).map fun p => areaOf p.rect.w p.rect.h).sum

/-- R107: R, the sum of the remnants' areas. -/
def remnantArea (remnants : List Rect) : Nat := (remnants.map fun r => areaOf r.w r.h).sum

/-- R108: the first job of the list with the largest piece area. -/
def largestJob (pieces : List PieceEntry) : List Nat → Nat
  | [] => 0
  | j :: rest => rest.foldl (fun best k => if jobArea pieces best < jobArea pieces k then k else best) j

/-- R108: a job's waste share before the residue. -/
def wasteShare (pieces : List PieceEntry) (waste total job : Nat) : Nat := waste * jobArea pieces job / total

/-- R109: material cents of an area share. -/
def materialCents (price share : Nat) : Nat := ceilDiv (share * price) 10000

/-- R107 to R109: the area shares and material cents of a plan's jobs on a slab, with remnants of area `remnant`. -/
def apportion (c : SlabContents) (pieces : List PieceEntry) (remnant : Nat) : List ShareLine :=
  let jobs := distinctJobs pieces
  let total := (jobs.map (jobArea pieces)).sum
  let waste := areaOf c.width c.height - total - remnant
  let residue := waste - (jobs.map (wasteShare pieces waste total)).sum
  let big := largestJob pieces jobs
  jobs.map fun j =>
    let share := jobArea pieces j + wasteShare pieces waste total j + (if j = big then residue else 0)
    ⟨j, share, materialCents c.price share⟩

/-! ### The estimate -/

/-- R106: the figures of one segment worked as one portion at nominal water: Texp, Wexp and the portion. -/
structure SegmentEstimate where
  job : Nat
  time : Nat
  water : Nat
  portion : Portion
  deriving DecidableEq, Repr

/-- R106: a segment of a plan worked for the estimate. -/
def estimateSegment (cfg : ConfigFields) (c : SlabContents) (p : Plan) (g : Segment) : SegmentEstimate :=
  let depth := effectiveDepth c.thickness cfg.overcut g
  let texp := expectedTime (pathLength g.kind g.start g.stop) (baseFeed cfg depth c.cls)
  let wexp := expectedWater cfg.qnom texp
  ⟨p.jobOf g, texp, wexp, portionOf cfg c.cls depth (inStoneLength c g.kind g.start g.stop) texp wexp 0⟩

/-- R61: a job line: the job's segments' cents, each saturating, and its material cents. -/
def estimateLine (segs : List SegmentEstimate) (share : ShareLine) : JobLine :=
  let mine := segs.filter (·.job == share.job)
  { job := share.job
    machine := sat32 (mine.map (·.portion.machine)).sum
    water := sat32 (mine.map (·.portion.water)).sum
    wear := sat32 (mine.map (·.portion.wearCents)).sum
    disposal := sat32 (mine.map (·.portion.disposal)).sum
    material := sat32 share.cents }

/-- R61: the five cost items of a job line together. -/
def JobLine.sum (l : JobLine) : Nat := l.machine + l.water + l.wear + l.disposal + l.material

/-- R61, R106: the estimate of a plan on a slab. -/
def estimateOf (cfg : ConfigFields) (c : SlabContents) (p : Plan) : Estimate :=
  let segs := p.segments.map (estimateSegment cfg c p)
  let lines := (apportion c p.pieces (remnantArea p.remnants)).map (estimateLine segs)
  { time := sat32 (segs.map (·.time)).sum
    water := sat32 (segs.map (·.water)).sum
    wear := sat32 (segs.map (·.portion.wear)).sum
    solids := sat32 (segs.map (·.portion.solids)).sum
    lines := lines
    total := sat32 (lines.map JobLine.sum).sum }

end Sys2Proof.Machine
end

