-- ==== Sys2Proof/WellFormed.lean ====
section
/-! DEFINITION. Which terms of `Instr` are commands of the part: every operand within what its layout can carry (12).
Whether a value is in RANGE is the command's own check and no matter of form. -/

namespace Sys2Proof

/-- Fits one byte. -/
abbrev isU8 (n : Nat) : Bool := n < 256

/-- Fits two bytes. -/
abbrev isU16 (n : Nat) : Bool := n < 65536

/-- Fits four bytes. -/
abbrev isU32 (n : Nat) : Bool := n < 4294967296

/-- Fits two bytes, signed. -/
abbrev isI16 (n : Int) : Bool := -32768 ≤ n && n < 32768

/-- A defect's eight bytes: x has 15 bits, its top bit being the kind (12, Slab contents). -/
def Defect.wellFormed (d : Defect) : Bool := d.x < 32768 && isU16 d.y && isU16 d.w && isU16 d.h

/-- A rectangle's eight bytes. -/
def Rect.wellFormed (r : Rect) : Bool := isU16 r.x && isU16 r.y && isU16 r.w && isU16 r.h

/-- A piece entry's ten bytes. -/
def PieceEntry.wellFormed (p : PieceEntry) : Bool := isU16 p.job && p.rect.wellFormed

/-- A segment entry's ten bytes. -/
def SegmentEntry.wellFormed (e : SegmentEntry) : Bool :=
  isI16 e.startX && isI16 e.startY && isI16 e.endX && isI16 e.endY && isU8 e.mode && isU8 e.piece

/-- A SLAB notice's contents: the class has 3 bits, at most six defects, and an absent parent is written 0, so a
present one is not 0 (12). -/
def SlabContents.wellFormed (c : SlabContents) : Bool :=
  c.cls < 8 && isU8 c.thickness && isU16 c.width && isU16 c.height && isU16 c.price
    && (match c.parent with | none => true | some p => 0 < p && isU16 p)
    && c.defects.length ≤ 6 && c.defects.all Defect.wellFormed

/-- The 46 bytes of fields of a configuration block (12). -/
def ConfigFields.wellFormed (c : ConfigFields) : Bool :=
  isU8 c.rate && isU16 c.supply && isU16 c.f0 && isU16 c.fmin && isU16 c.fmax && isU8 c.overcut && isU8 c.kerf
    && c.hardness.length == 8 && c.hardness.all isU8 && isU8 c.qnom && isU8 c.qmin && isU16 c.machineRate
    && isU16 c.priceRecycled && isU16 c.priceFresh && isU16 c.priceWear && isU16 c.priceDisposal && isU8 c.makeup
    && isU8 c.freshLimit && isU8 c.margin && isU8 c.guard && isU32 c.threshold && isU32 c.hardLimit && isU8 c.press
    && isU16 c.purgeTime

/-- A sender of a valid notice has a station number 0..30 (R155). -/
abbrev isSender (k : Nat) : Bool := k < 31

/-- R169: a frame cut short has a kind byte that is no read marker and a length byte; at most the twelve commands the
inbound queue holds are taken while it arrives, and its last byte has not arrived. R174: a report frame has at most 62 bytes, the last of them not shifted
out. -/
def CutFrame.wellFormed : CutFrame → Bool
  | .none => true
  | .beforeLength => true
  | .afterLength kind length taken body => 0 < kind && isU8 kind && isU8 length && taken ≤ 12 && body < length
  | .reading shifted => 0 < shifted && shifted < 62

/-- Every operand within what its layout can carry. -/
def Instr.wellFormed : Instr → Bool
  | .pinReset straps => straps < 32
  | .inboundFrame kind body taken => 0 < kind && isU8 kind && body.length < 256 && taken ≤ 12
  | .selectInactive cut => cut.wellFormed
  | .enterSlab cls thickness width height price defects =>
      isU8 cls && isU8 thickness && isU16 width && isU16 height && isU16 price && defects.length ≤ 6
        && defects.all Defect.wellFormed
  | .readSlab slab => isU16 slab
  | .listSlabs start => isU16 start
  | .take slab job => isU16 slab && isU16 job
  | .give slab => isU16 slab
  | .planHead plan slab => isU16 plan && isU16 slab
  | .planPieces pieces => pieces.length ≤ 5 && pieces.all PieceEntry.wellFormed
  | .planRemnants remnants => remnants.length ≤ 7 && remnants.all Rect.wellFormed
  | .planSegments segments => segments.length ≤ 6 && segments.all SegmentEntry.wellFormed
  | .segmentDone tag length time => isU8 tag && isU16 length && isU16 time
  | .segmentPaused tag length time => isU8 tag && isU16 length && isU16 time
  | .segmentFault tag cause length time => isU8 tag && isU8 cause && isU16 length && isU16 time
  | .closeSlab slab mode job => isU16 slab && isU8 mode && isU16 job
  | .openJob job estimate => isU16 job && (match estimate with | none => true | some e => isU32 e)
  | .closeJob job => isU16 job
  | .freeJob job => isU16 job
  | .readJob job => isU16 job
  | .setStation first second number => isU8 first && isU8 second && isU8 number
  | .writeConfig fields => fields.wellFormed
  | .writeCalibration kRecycled kFresh => isU8 kRecycled && isU8 kFresh
  | .restart straps => straps < 32
  | .pollReceived station resource => isSender station && isU16 resource
  | .claimReceived station resource job => isSender station && isU16 resource && isU16 job
  | .releaseReceived station resource => isSender station && isU16 resource
  | .demandReceived station demand => isSender station && isU8 demand
  | .retireReceived station slab reason => isSender station && isU16 slab && isU8 reason
  | .slabReceived station slab contents => isSender station && isU16 slab && contents.wellFormed
  | .helloReceived station supply rate press => isSender station && isU16 supply && isU8 rate && isU8 press
  | .checkError kind station resource => kind < 16 && station < 32 && isU16 resource
  | .formatError kind station resource => kind < 16 && station < 32 && isU16 resource
  | .settleTimerExpiry resource => isU16 resource
  | .peerLapse station => isSender station
  | .peerAbsent station => isSender station
  | .transactionStart => true
  | .malformedFrame => true
  | .outboundFrameRead => true
  | .planEnd => true
  | .dropPlan => true
  | .startPlan => true
  | .abortPlan => true
  | .continuePlan => true
  | .purgeNow => true
  | .join => true
  | .readStation => true
  | .readPeers => true
  | .storeErase => true
  | .lossOfStep => true
  | .stuckLine => true
  | .receiverResync => true
  | .transmitAttempt => true
  | .attemptAbandoned => true
  | .noticeSent => true
  | .ownPollWindow _ => true
  | .listenInExpiry => true
  | .announceTimerExpiry => true
  | .demandRefreshExpiry => true
  | .resumeDwellExpiry => true
  | .overrunExpiry => true
  | .stopWaitExpiry => true
  | .purgeTimerExpiry => true
  | .retryTimerExpiry => true
  | .meterPulse _ => true
  | .pressDone => true
  | .storeWriteDone => true
  | .storeWriteTimeout => true
  | .startUpEnd => true
  | .readMarker => true
  | .frameReadBegun => true

end Sys2Proof
end

