-- ==== Sys2Proof/Decode.lean ====
section
/-! DEFINITION. The layouts of chapter 12 that spell commands: the body of each host frame (decodeCommand,
encodeCommand), and the notices of the floor line (decodeNotice, encodeNotice), which name the row of the table that a
notice read off the line brings about (R155, R156, R157, R160). No row of the table gives bits, so `decodeTableWord`
answers none. -/

namespace Sys2Proof

open Sys2Proof.Machine

/-- The command a table word spells. No row of spec/opcode_table.json gives bits: none. -/
def decodeTableWord (_nbits _w : Nat) : Option Instr := none

/-! ### Host frames (12, Host frames) -/

/-- The command kinds: 0x01 ENTER SLAB to 0x1F RESTART, in the order of the Host Link command list. -/
def isCommandKind (kind : Nat) : Bool := 1 ≤ kind && kind ≤ 31

/-- A defect's eight bytes: x in bits 0..14 with the kind in bit 15, then y, w, h. -/
def Defect.bytes (d : Defect) : List Byte :=
  le16 (d.x % 32768 + (match d.kind with | .void => 0 | .fissure => 32768)) ++ le16 d.y ++ le16 d.w ++ le16 d.h

/-- A rectangle's eight bytes. -/
def Rect.bytes (r : Rect) : List Byte := le16 r.x ++ le16 r.y ++ le16 r.w ++ le16 r.h

/-- A piece's ten bytes. -/
def PieceEntry.bytes (p : PieceEntry) : List Byte := le16 p.job ++ p.rect.bytes

/-- A segment entry's ten bytes. -/
def SegmentEntry.bytes (e : SegmentEntry) : List Byte :=
  le16s e.startX ++ le16s e.startY ++ le16s e.endX ++ le16s e.endY ++ [u8 e.mode, u8 e.piece]

/-- The 46 bytes of a WRITE CONFIG body: the block's fields in their stored order, one copy of each triplicated. -/
def ConfigFields.bytes (c : ConfigFields) : List Byte :=
  [u8 c.rate] ++ le16 c.supply ++ le16 c.f0 ++ le16 c.fmin ++ le16 c.fmax ++ [u8 c.overcut, u8 c.kerf]
    ++ c.hardness.map u8 ++ [u8 c.qnom, u8 c.qmin] ++ le16 c.machineRate ++ le16 c.priceRecycled ++ le16 c.priceFresh
    ++ le16 c.priceWear ++ le16 c.priceDisposal ++ [u8 c.makeup, u8 c.freshLimit, u8 c.margin, u8 c.guard]
    ++ le32 c.threshold ++ le32 c.hardLimit ++ [u8 c.press] ++ le16 c.purgeTime

/-- A defect from its first two-byte field and the rest. -/
def defectOf (xk y w h : Nat) : Defect := ⟨if xk < 32768 then .void else .fissure, xk % 32768, y, w, h⟩

/-- Defects, eight bytes each; none when bytes are left over. -/
def parseDefects : List Byte → Option (List Defect)
  | [] => some []
  | a :: b :: c :: d :: e :: f :: g :: h :: rest =>
      (parseDefects rest).map (defectOf (get16 a b) (get16 c d) (get16 e f) (get16 g h) :: ·)
  | _ => none

/-- Pieces, ten bytes each. -/
def parsePieces : List Byte → Option (List PieceEntry)
  | [] => some []
  | i :: j :: a :: b :: c :: d :: e :: f :: g :: h :: rest =>
      (parsePieces rest).map (⟨get16 i j, get16 a b, get16 c d, get16 e f, get16 g h⟩ :: ·)
  | _ => none

/-- Remnant rectangles, eight bytes each. -/
def parseRects : List Byte → Option (List Rect)
  | [] => some []
  | a :: b :: c :: d :: e :: f :: g :: h :: rest =>
      (parseRects rest).map (⟨get16 a b, get16 c d, get16 e f, get16 g h⟩ :: ·)
  | _ => none

/-- Segment entries, ten bytes each: a body length that is no multiple of 10 is not the length its kind calls for. -/
def parseSegments : List Byte → Option (List SegmentEntry)
  | [] => some []
  | a :: b :: c :: d :: e :: f :: g :: h :: m :: p :: rest =>
      (parseSegments rest).map (⟨get16s a b, get16s c d, get16s e f, get16s g h, m.toNat, p.toNat⟩ :: ·)
  | _ => none

/-- The fields of a configuration block from 46 bytes, by their offsets. -/
def configOfBytes (bs : List Byte) : ConfigFields where
  rate := byteAt bs 0
  supply := u16At bs 1
  f0 := u16At bs 3
  fmin := u16At bs 5
  fmax := u16At bs 7
  overcut := byteAt bs 9
  kerf := byteAt bs 10
  hardness := (List.range 8).map fun i => byteAt bs (11 + i)
  qnom := byteAt bs 19
  qmin := byteAt bs 20
  machineRate := u16At bs 21
  priceRecycled := u16At bs 23
  priceFresh := u16At bs 25
  priceWear := u16At bs 27
  priceDisposal := u16At bs 29
  makeup := byteAt bs 31
  freshLimit := byteAt bs 32
  margin := byteAt bs 33
  guard := byteAt bs 34
  threshold := u32At bs 35
  hardLimit := u32At bs 39
  press := byteAt bs 43
  purgeTime := u16At bs 44

/-- R170, 12: the command a frame of kind `kind` spells; none when the kind is unknown or the body's length is not the
one the kind calls for (for a kind that carries a count, the length that count gives). `straps` is what the straps read,
which RESTART alone carries along. -/
def decodeCommand (straps kind : Nat) (body : List Byte) : Option Instr :=
  match kind, body with
  | 0x01, c :: t :: w0 :: w1 :: h0 :: h1 :: p0 :: p1 :: n :: rest =>
      if rest.length = 8 * n.toNat then
        (parseDefects rest).map (.enterSlab c.toNat t.toNat (get16 w0 w1) (get16 h0 h1) (get16 p0 p1) ·)
      else none
  | 0x02, [a, b] => some (.readSlab (get16 a b))
  | 0x03, [a, b] => some (.listSlabs (get16 a b))
  | 0x04, [a, b, c, d] => some (.take (get16 a b) (get16 c d))
  | 0x05, [a, b] => some (.give (get16 a b))
  | 0x06, [a, b, c, d] => some (.planHead (get16 a b) (get16 c d))
  | 0x07, n :: rest => if rest.length = 10 * n.toNat then (parsePieces rest).map .planPieces else none
  | 0x08, n :: rest => if rest.length = 8 * n.toNat then (parseRects rest).map .planRemnants else none
  | 0x09, rest => (parseSegments rest).map .planSegments
  | 0x0A, [] => some .planEnd
  | 0x0B, [] => some .dropPlan
  | 0x0C, [] => some .startPlan
  | 0x0D, [] => some .abortPlan
  | 0x0E, [] => some .continuePlan
  | 0x0F, [t, a, b, c, d] => some (.segmentDone t.toNat (get16 a b) (get16 c d))
  | 0x10, [t, a, b, c, d] => some (.segmentPaused t.toNat (get16 a b) (get16 c d))
  | 0x11, [t, k, a, b, c, d] => some (.segmentFault t.toNat k.toNat (get16 a b) (get16 c d))
  | 0x12, [a, b, m, c, d] => some (.closeSlab (get16 a b) m.toNat (get16 c d))
  | 0x13, [a, b] => some (.openJob (get16 a b) none)
  | 0x13, [a, b, c, d, e, f] => some (.openJob (get16 a b) (some (get32 c d e f)))
  | 0x14, [a, b] => some (.closeJob (get16 a b))
  | 0x15, [a, b] => some (.freeJob (get16 a b))
  | 0x16, [a, b] => some (.readJob (get16 a b))
  | 0x17, [] => some .purgeNow
  | 0x18, [] => some .join
  | 0x19, [] => some .readStation
  | 0x1A, [] => some .readPeers
  | 0x1B, [a, b, n] => some (.setStation a.toNat b.toNat n.toNat)
  | 0x1C, bs => if bs.length = 46 then some (.writeConfig (configOfBytes bs)) else none
  | 0x1D, [a, b] => some (.writeCalibration a.toNat b.toNat)
  | 0x1E, [] => some .storeErase
  | 0x1F, [] => some (.restart straps)
  | _, _ => none

/-- The frame (kind and body) that spells a host command (12); none for a row that is no host command. -/
def encodeCommand : Instr → Option (Nat × List Byte)
  | .enterSlab cls thickness width height price defects =>
      some (0x01, [u8 cls, u8 thickness] ++ le16 width ++ le16 height ++ le16 price ++ [u8 defects.length]
        ++ defects.flatMap Defect.bytes)
  | .readSlab slab => some (0x02, le16 slab)
  | .listSlabs start => some (0x03, le16 start)
  | .take slab job => some (0x04, le16 slab ++ le16 job)
  | .give slab => some (0x05, le16 slab)
  | .planHead plan slab => some (0x06, le16 plan ++ le16 slab)
  | .planPieces pieces => some (0x07, [u8 pieces.length] ++ pieces.flatMap PieceEntry.bytes)
  | .planRemnants remnants => some (0x08, [u8 remnants.length] ++ remnants.flatMap Rect.bytes)
  | .planSegments segments => some (0x09, segments.flatMap SegmentEntry.bytes)
  | .planEnd => some (0x0A, [])
  | .dropPlan => some (0x0B, [])
  | .startPlan => some (0x0C, [])
  | .abortPlan => some (0x0D, [])
  | .continuePlan => some (0x0E, [])
  | .segmentDone tag length time => some (0x0F, [u8 tag] ++ le16 length ++ le16 time)
  | .segmentPaused tag length time => some (0x10, [u8 tag] ++ le16 length ++ le16 time)
  | .segmentFault tag cause length time => some (0x11, [u8 tag, u8 cause] ++ le16 length ++ le16 time)
  | .closeSlab slab mode job => some (0x12, le16 slab ++ [u8 mode] ++ le16 job)
  | .openJob job none => some (0x13, le16 job)
  | .openJob job (some estimate) => some (0x13, le16 job ++ le32 estimate)
  | .closeJob job => some (0x14, le16 job)
  | .freeJob job => some (0x15, le16 job)
  | .readJob job => some (0x16, le16 job)
  | .purgeNow => some (0x17, [])
  | .join => some (0x18, [])
  | .readStation => some (0x19, [])
  | .readPeers => some (0x1A, [])
  | .setStation first second number => some (0x1B, [u8 first, u8 second, u8 number])
  | .writeConfig fields => some (0x1C, fields.bytes)
  | .writeCalibration kRecycled kFresh => some (0x1D, [u8 kRecycled, u8 kFresh])
  | .storeErase => some (0x1E, [])
  | .restart _ => some (0x1F, [])
  | _ => none

/-! ### Floor notices (12, Floor notices; R154, R155) -/

/-- A notice as it stands on the line: precedence, length, body and check. -/
structure RawNotice where
  kind : Nat
  station : Nat
  length : Nat
  body : List Byte
  check : BitVec 16
  deriving DecidableEq, Repr

/-- The 16 bits of precedence and length, as two bytes, high bit first. -/
def headerBytes (kind station length : Nat) : List Byte :=
  let v := kind * 4096 + station * 128 + length
  [u8 (v / 256), u8 v]

/-- R186: on the floor line the check covers the 16 bits of precedence and length, then the body. -/
def noticeCheck (kind station length : Nat) (body : List Byte) : BitVec 16 :=
  checkOf (headerBytes kind station length ++ body)

/-- 12, Slab contents: id, class and defect count, thickness, width, height, price, parent id, then the defects. -/
def contentsBytes (id : Nat) (c : SlabContents) : List Byte :=
  le16 id ++ [u8 (c.cls % 8 + 16 * (c.defects.length % 8)), u8 c.thickness] ++ le16 c.width ++ le16 c.height
    ++ le16 c.price ++ le16 (c.parent.getD 0) ++ c.defects.flatMap Defect.bytes

/-- Slab contents from their bytes, by offset: the id and the contents. The other bits of the class byte are not read, and
a stored count of 7 stands for six defects (DESIGN CHOICE, log entries 51 and 52). -/
def contentsOfBytes (bs : List Byte) : Nat × SlabContents :=
  let count := byteAt bs 2 / 16 % 8
  (u16At bs 0,
    { cls := byteAt bs 2 % 8
      thickness := byteAt bs 3
      width := u16At bs 4
      height := u16At bs 6
      price := u16At bs 8
      parent := if u16At bs 10 = 0 then none else some (u16At bs 10)
      defects := (List.range (min count 6)).map fun i =>
        defectOf (u16At bs (12 + 8 * i)) (u16At bs (14 + 8 * i)) (u16At bs (16 + 8 * i)) (u16At bs (18 + 8 * i)) })

/-- The notice of each received-notice row; none for the other rows. -/
def encodeNotice (i : Instr) : Option RawNotice :=
  let raw (kind station : Nat) (body : List Byte) : Option RawNotice :=
    some ⟨kind, station, body.length, body, noticeCheck kind station body.length body⟩
  match i with
  | .pollReceived k r => raw 1 k (le16 r)
  | .claimReceived k r job => raw 2 k (le16 r ++ le16 job)
  | .releaseReceived k r => raw 3 k (le16 r)
  | .demandReceived k d => raw 4 k [u8 d]
  | .retireReceived k slab reason => raw 5 k (le16 slab ++ [u8 reason])
  | .slabReceived k slab contents => raw 6 k (contentsBytes slab contents)
  | .helloReceived k supply rate press => raw 7 k (le16 supply ++ [u8 rate, u8 press])
  | _ => none

/-- R155: whether a length is the one the kind calls for (for SLAB, the one its defect count gives, at most six). -/
def lengthFits (kind : Nat) (body : List Byte) : Bool :=
  match kind with
  | 1 => body.length == 2
  | 2 => body.length == 4
  | 3 => body.length == 2
  | 4 => body.length == 1
  | 5 => body.length == 3
  | 6 => byteAt body 2 / 16 % 8 ≤ 6 && body.length == 12 + 8 * (byteAt body 2 / 16 % 8)
  | 7 => body.length == 4
  | _ => false

/-- The row that a notice read off the line brings about: a stuck line (R160), a loss of step (R156), a check error
(R157), a format error or, when it is valid, the notice's own row (R155). A body of fewer than two bytes names a
resource with its missing bytes 0 (DESIGN CHOICE, log entry 50). -/
def decodeNotice (n : RawNotice) : Instr :=
  if n.kind = 0 ∧ n.station = 0 then .stuckLine
  else if 64 < n.length then .lossOfStep
  else if n.check ≠ noticeCheck n.kind n.station n.length n.body then .checkError n.kind n.station (u16At n.body 0)
  else if n.station = 31 ∨ lengthFits n.kind n.body = false then .formatError n.kind n.station (u16At n.body 0)
  else match n.kind with
    | 1 => .pollReceived n.station (u16At n.body 0)
    | 2 => .claimReceived n.station (u16At n.body 0) (u16At n.body 2)
    | 3 => .releaseReceived n.station (u16At n.body 0)
    | 4 => .demandReceived n.station (byteAt n.body 0)
    | 5 => .retireReceived n.station (u16At n.body 0) (byteAt n.body 2)
    | 6 => .slabReceived n.station (contentsOfBytes n.body).1 (contentsOfBytes n.body).2
    | 7 => .helloReceived n.station (u16At n.body 0) (byteAt n.body 2) (byteAt n.body 3)
    | _ => .formatError n.kind n.station (u16At n.body 0)

end Sys2Proof
end

