-- ==== Sys2Proof/Machine/Flags.lean ====
section
/-! DEFINITION. The lines and flags that are functions of the state and held nowhere twice: the valves (R119, R128), the
attention line (R175), the status byte (R168), the pending-cause and job flag bytes (12). -/

namespace Sys2Proof.Machine

/-- A flag's weight in a byte. -/
def bitIf (b : Bool) (weight : Nat) : Nat := if b then weight else 0

/-- R81: whether the set is empty. -/
def Pending.isEmpty (p : Pending) : Bool :=
  !p.waterShort && !p.sumpFull && !p.bladeStall && !p.operatorStop && !p.machinePause

/-- R81: whether the set holds a host cause. -/
def Pending.hasHost (p : Pending) : Bool := p.bladeStall || p.operatorStop || p.machinePause

/-- R81: whether the set holds an external cause. -/
def Pending.hasExternal (p : Pending) : Bool := p.waterShort || p.sumpFull

/-- R84: the set less every host cause. -/
def Pending.withoutHost (p : Pending) : Pending :=
  { p with bladeStall := false, operatorStop := false, machinePause := false }

/-- R81: a cause added to the set; the causes that end a plan are no members of it. -/
def Pending.add (p : Pending) : Cause → Pending
  | .waterShort => { p with waterShort := true }
  | .sumpFull => { p with sumpFull := true }
  | .bladeStall => { p with bladeStall := true }
  | .operatorStop => { p with operatorStop := true }
  | .machinePause => { p with machinePause := true }
  | _ => p

/-- 12: the pending-cause byte. -/
def Pending.byte (p : Pending) : Nat :=
  bitIf p.waterShort 1 + bitIf p.sumpFull 2 + bitIf p.bladeStall 4 + bitIf p.operatorStop 8 + bitIf p.machinePause 16

/-- R82: the origin of a cause. -/
def Cause.origin : Cause → Origin
  | .waterShort => .external
  | .sumpFull => .external
  | .overrun => .external
  | _ => .machine

/-- R119: an order is in flight and not held. -/
def State.cutting (s : State) : Bool := s.active.order.any fun o => !o.held

/-- R119: the recycled valve. -/
def State.recycledValve (s : State) : Bool := s.cutting

/-- R119: the fresh valve. -/
def State.freshValve (s : State) : Bool := s.cutting && 0 < s.water.fresh

/-- R128: the purge valve is open in PURGING and closed in every other state. -/
def State.purgeValve (s : State) : Bool := s.sump.state == .purging

/-- R175: the attention line is pulled low while the outbound queue holds at least one frame. -/
def State.attentionLow (s : State) : Bool := !s.host.outbound.isEmpty

/-- R168: the inbound free frames the status byte shows; 0 during start-up (R179). -/
def State.freeInbound (s : State) : Nat := if s.host.startingUp then 0 else 12 - s.host.inbound.length

/-- R168, 12: the status byte as the part stands; during start-up it shows nothing free and nothing pending (R179). -/
def State.statusByte (s : State) : Nat :=
  s.freeInbound + bitIf (!s.host.startingUp && s.attentionLow) 16 + bitIf s.host.overflow 32
    + bitIf s.active.fault.isSome 64

/-- 12: the flag byte of a JOB RECORD report. -/
def JobRecord.reportFlags (j : JobRecord) : Nat :=
  bitIf j.estimate.isSome 1 + bitIf j.overEstimate 2 + bitIf j.saturated 4 + bitIf j.damaged 8

/-- 12: the flag byte of a stored job record. -/
def JobRecord.storedFlags (j : JobRecord) : Nat :=
  bitIf j.closed 1 + bitIf j.estimate.isSome 2 + bitIf j.overEstimate 4 + bitIf j.saturated 8 + bitIf j.damaged 16

end Sys2Proof.Machine
end

