-- ==== Sys2Proof/Machine/Layout.lean ====
section
/-! DEFINITION. Layouts of chapter 12 that the part writes: the body of each report frame, the notices it sends, and the
bytes of the stored places, with their reading back at recovery. -/

namespace Sys2Proof.Machine

/-! ### Codes -/

/-- 12: slab state codes. -/
def SlabState.code : SlabState → Nat
  | .stock => 0
  | .cutting => 1
  | .cutOpen => 2
  | .gone => 3

/-- 12: the slab state of a code 0..3; a larger code, which 12 does not give, stands for a free one. -/
def slabStateOf (code : Nat) : SlabState :=
  match (if code < 4 then code else Config.slabStateCode code % 4) with
  | 0 => .stock
  | 1 => .cutting
  | 2 => .cutOpen
  | _ => .gone

/-- 12: reason codes 1..16. -/
def Reason.code : Reason → Nat
  | .state => 1
  | .range => 2
  | .badFrame => 3
  | .unknownSlab => 4
  | .slabGone => 5
  | .slabBusy => 6
  | .heldElsewhere => 7
  | .claimTableFull => 8
  | .registerFull => 9
  | .jobTableFull => 10
  | .jobNotOpen => 11
  | .jobInUse => 12
  | .noPlan => 13
  | .lineInert => 14
  | .muted => 15
  | .staleTag => 16

/-- 12: claim results. -/
def ClaimResult.code : ClaimResult → Nat
  | .granted => 0
  | .heldElsewhere => 1
  | .claimLost => 2
  | .lineNoisy => 3
  | .muted => 4

/-- 12: cause codes 1..12. -/
def Cause.code : Cause → Nat
  | .bladeStall => 1
  | .operatorStop => 2
  | .axisLimit => 3
  | .bladeBroken => 4
  | .waterShort => 5
  | .sumpFull => 6
  | .machinePause => 7
  | .doubleFault => 8
  | .repeatedFault => 9
  | .overrun => 10
  | .hostAbort => 11
  | .duplicateStation => 12

/-- 12: item kinds. -/
def ItemKind.code : ItemKind → Nat
  | .slab => 0
  | .piece => 1
  | .remnant => 2
  | .segment => 3
  | .job => 4

/-- 12: order kinds. -/
def OrderKind.code : OrderKind → Nat
  | .new => 0
  | .resume => 1

/-- 12: attach states. -/
def Attach.code : Attach → Nat
  | .inert => 0
  | .listening => 1
  | .active => 2
  | .muted => 3

/-- 12: purge states. -/
def PurgeState.code : PurgeState → Nat
  | .idle => 0
  | .wantPress => 1
  | .purging => 2
  | .retryWait => 3

/-- 12: presence codes. -/
def Presence.code : Presence → Nat
  | .absent => 0
  | .present => 1
  | .lapsed => 2

/-- 12: LINE FAULT causes. -/
def LineFaultCause.code : LineFaultCause → Nat
  | .retriesExhausted => 1
  | .stuckLine => 2
  | .duplicateStation => 3

/-- R155: notice kinds; the lower value has the higher precedence. -/
def Notice.kind : Notice → Nat
  | .poll _ => 1
  | .claim _ _ => 2
  | .release _ => 3
  | .demand _ => 4
  | .retire _ _ => 5
  | .slab _ _ => 6
  | .hello _ _ _ => 7

/-- A one-byte index, 0xFF when absent. -/
def optByte (o : Option Nat) : Byte := u8 (o.getD 255)

/-! ### Report frames -/

/-- 12: the twelve bytes of a fault record. -/
def FaultRecord.bytes (r : FaultRecord) : List Byte :=
  [u8 (match r.cls with | .fault => 0 | .abort => 1), u8 r.cause.code, u8 (r.prior.elim 0 Cause.code)] ++ le16 r.plan
    ++ [u8 r.segment, u8 r.kind.code] ++ le16s r.reached.x ++ le16s r.reached.y
    ++ [u8 (match r.origin with | .external => 0 | .machine => 1)]

/-- 12: a trap's code. -/
def Trap.code : Trap → Nat
  | .lengthMismatch _ _ _ => 1
  | .freshUsed _ => 2
  | .costOverEstimate _ _ => 3
  | .unreportedPortion _ => 4
  | .jobOverEstimate _ _ _ => 5
  | .saturated _ _ => 6
  | .purgeTimeout _ _ _ => 7
  | .lineFault _ _ => 8
  | .lineBacklog _ => 9
  | .configSkew _ _ _ _ => 10
  | .registerDiscard _ => 11

/-- 12: the fields after a trap's segment index. -/
def Trap.fields : Trap → List Byte
  | .lengthMismatch tag reported ordered => [u8 tag] ++ le32 reported ++ le32 ordered
  | .freshUsed dl => le32 dl
  | .costOverEstimate actual estimated => le32 actual ++ le32 estimated
  | .unreportedPortion tag => [u8 tag]
  | .jobOverEstimate job estimate total => le16 job ++ le32 estimate ++ le32 total
  | .saturated job field => le16 job ++ [u8 field]
  | .purgeTimeout press snapshot volume => [u8 press] ++ le32 snapshot ++ le32 volume
  | .lineFault cause kind => [u8 cause.code, u8 kind]
  | .lineBacklog kind => [u8 kind]
  | .configSkew station supply rate press => [u8 station] ++ le16 supply ++ [u8 rate, u8 press]
  | .registerDiscard slab => le16 slab

/-- 12: a share line of a CLOSE SLAB reply. -/
def ShareLine.bytes (l : ShareLine) : List Byte := le16 l.job ++ le32 l.area ++ le32 l.cents

/-- 12: the result fields of an ACCEPTED reply. -/
def Accepted.bytes : Accepted → List Byte
  | .bare => []
  | .slabId id => le16 id
  | .number n => [u8 n]
  | .settlement (some count) lines => [u8 0, u8 count] ++ lines.flatMap ShareLine.bytes
  | .settlement none lines => [u8 1] ++ lines.flatMap ShareLine.bytes

/-- 12: the rejection record of a PLAN RESULT. The partner index is 0 where the partner is absent, and x and y are 0 where
the coordinate is (DESIGN CHOICE, log entry 53). -/
def Rejection.bytes (r : Rejection) : List Byte :=
  let point := r.coordinate.getD ⟨0, 0⟩
  [u8 r.check, u8 r.item.code, u8 r.index, u8 (r.partner.elim 0 (·.1.code)), u8 (r.partner.elim 0 (·.2)),
      u8 (bitIf r.coordinate.isSome 1)]
    ++ le16s point.x ++ le16s point.y ++ [optByte r.defect]

/-- 12: the eight bytes of a PEER VIEW entry; the time since last heard is in tenths. -/
def PeerEntry.bytes (e : PeerEntry) : List Byte :=
  let presence := if e.unused then 3 else e.presence.code
  [u8 (presence + bitIf e.busy 4 + bitIf e.fingerprint.isSome 8), u8 e.demand] ++ le16 (e.heard.getD 65535)
    ++ le16 (e.fingerprint.elim 0 (·.supply))
    ++ [u8 (e.fingerprint.elim 0 (·.rate)), u8 (e.fingerprint.elim 0 (·.press))]

/-- 12: the body of a STATION VIEW. -/
def StationView.bytes (v : StationView) : List Byte :=
  [optByte v.station, u8 v.attach.code, u8 (bitIf v.clamped 1 + bitIf v.degraded 2 + bitIf v.overflow 4),
      u8 v.leftOut, u8 v.damaged, u8 (bitIf v.sumpDefault 1 + bitIf v.serialDefault 2)]
    ++ le16 v.storeFaults ++ le32 v.idleRecycled ++ le32 v.idleFresh ++ le32 v.volume ++ [u8 v.purge.code]
    ++ le16 v.dropped ++ le16 v.truncated ++ le16 v.checkErrors ++ le16 v.formatErrors ++ le16 v.lostNotices
    ++ le16 v.lineFaults ++ le16 v.retryDrops ++ le16 v.backlogDrops ++ le16 v.conflicts ++ le16 v.discarded
    ++ le16 v.refused

/-- 12: report kinds 0x41..0x53. -/
def Report.kind : Report → Nat
  | .accepted _ _ => 0x41
  | .refused _ _ => 0x42
  | .slabRecordHead _ => 0x43
  | .slabRecordTail _ _ => 0x43
  | .slabList _ _ => 0x44
  | .claimResult _ _ _ _ _ => 0x45
  | .planValid _ _ => 0x46
  | .planLine _ _ => 0x46
  | .planRejected _ _ => 0x46
  | .planStale _ _ _ => 0x47
  | .segmentOrder _ _ => 0x48
  | .feedUpdate _ _ _ _ => 0x49
  | .holdOrder _ _ => 0x4A
  | .stopOrder _ _ => 0x4B
  | .planComplete _ _ _ _ _ => 0x4C
  | .completeLine _ _ => 0x4C
  | .planAborted _ _ _ _ => 0x4D
  | .trap _ _ _ => 0x4E
  | .fault _ _ => 0x4F
  | .jobHead _ => 0x50
  | .jobTail _ => 0x50
  | .purgeReport _ _ _ _ => 0x51
  | .peerView _ _ => 0x52
  | .stationView _ => 0x53

/-- 12: the body of each report frame. -/
def Report.body : Report → List Byte
  | .accepted command fields => [u8 command] ++ fields.bytes
  | .refused command reason => [u8 command, u8 reason.code]
  | .slabRecordHead r =>
      [u8 0] ++ (contentsBytes r.id r.contents).take 12 ++ [u8 r.state.code, optByte r.holder] ++ le32 r.heard
  | .slabRecordTail id defects => [u8 1] ++ le16 id ++ defects.flatMap Defect.bytes
  | .slabList entries more =>
      [u8 entries.length, u8 (bitIf more 1)] ++ entries.flatMap fun e => le16 e.1 ++ [u8 e.2.code]
  | .claimResult slab job result station polls =>
      le16 slab ++ le16 job ++ [u8 result.code, optByte station, u8 polls]
  | .planValid plan e =>
      [u8 0] ++ le16 plan ++ [u8 0, u8 e.lines.length] ++ le32 e.time ++ le32 e.water ++ le32 e.wear ++ le32 e.solids
        ++ le32 e.total
  | .planLine plan l =>
      [u8 1] ++ le16 plan ++ le16 l.job ++ le32 l.machine ++ le32 l.water ++ le32 l.wear ++ le32 l.disposal
        ++ le32 l.material
  | .planRejected plan why => [u8 0] ++ le16 plan ++ [u8 1] ++ why.bytes
  | .planStale plan slab cause => le16 plan ++ le16 slab ++ [u8 (match cause with | .changed => 0 | .gone => 1)]
  | .segmentOrder o bevel =>
      [u8 o.tag, u8 o.segment, u8 o.kind.code] ++ le16s o.start.x ++ le16s o.start.y ++ le16s o.stop.x
        ++ le16s o.stop.y ++ [u8 o.depth, u8 (bitIf bevel 45)] ++ le16 o.feed ++ [u8 o.water] ++ le16 o.expected
  | .feedUpdate tag segment feed water => [u8 tag, u8 segment] ++ le16 feed ++ le16 water
  | .holdOrder tag segment => [u8 tag, u8 segment]
  | .stopOrder tag segment => [u8 tag, u8 segment]
  | .planComplete plan slab remnants actual lines =>
      [u8 0] ++ le16 plan ++ le16 slab ++ [u8 remnants.length] ++ remnants.flatMap le16 ++ le32 actual ++ [u8 lines]
  | .completeLine plan l => [u8 1] ++ le16 plan ++ le16 l.job ++ le32 l.area ++ le32 l.cents
  | .planAborted record nextSeg charged actual => record.bytes ++ [u8 nextSeg, u8 charged] ++ le32 actual
  | .trap what plan segment => [u8 what.code] ++ le16 plan ++ [optByte segment] ++ what.fields
  | .fault record pending => record.bytes ++ [u8 pending.byte]
  | .jobHead j =>
      [u8 0] ++ le16 j.number ++ [u8 (bitIf j.closed 1), u8 j.reportFlags, u8 j.inUse] ++ le32 (j.estimate.getD 0)
        ++ le32 j.segments ++ le32 j.inStone ++ le32 j.time ++ le32 j.recycled ++ le32 j.fresh ++ le32 j.wear
        ++ le32 j.solids
  | .jobTail j =>
      [u8 1] ++ le16 j.number ++ le32 j.area ++ le32 j.machine ++ le32 j.water ++ le32 j.wearCents ++ le32 j.disposal
        ++ le32 j.material ++ le32 j.total
  | .purgeReport press purged volume tenths => [u8 press] ++ le32 purged ++ le32 volume ++ le32 tenths
  | .peerView first entries => [u8 first, u8 entries.length] ++ entries.flatMap PeerEntry.bytes
  | .stationView v => v.bytes

/-- R168: a report frame's bytes: kind, length, body. -/
def Report.frame (r : Report) : List Byte := [u8 r.kind, u8 r.body.length] ++ r.body

/-- A report frame's size in bytes. -/
def Report.size (r : Report) : Nat := 2 + r.body.length

/-- R71: the order frames. -/
def Report.isOrder : Report → Bool
  | .segmentOrder _ _ => true
  | .feedUpdate _ _ _ _ => true
  | .holdOrder _ _ => true
  | .stopOrder _ _ => true
  | _ => false

/-- R71: the tag of an update frame (FEED UPDATE, HOLD ORDER, STOP ORDER). -/
def Report.updateTag : Report → Option Nat
  | .feedUpdate tag _ _ _ => some tag
  | .holdOrder tag _ => some tag
  | .stopOrder tag _ => some tag
  | _ => none

/-- R71, R173: the tag of any order frame. -/
def Report.orderTag : Report → Option Nat
  | .segmentOrder o _ => some o.tag
  | .feedUpdate tag _ _ _ => some tag
  | .holdOrder tag _ => some tag
  | .stopOrder tag _ => some tag
  | _ => none

/-! ### Notices the part sends -/

/-- 12: a notice's body. -/
def Notice.body : Notice → List Byte
  | .poll r => le16 r
  | .claim r job => le16 r ++ le16 job
  | .release r => le16 r
  | .demand d => [u8 d]
  | .retire id reason => le16 id ++ [u8 reason]
  | .slab id c => contentsBytes id c
  | .hello supply rate press => le16 supply ++ [u8 rate, u8 press]

/-- R154, R186: the bits of a notice from its start bit through its check, as the line carries them (dominant is 0):
the start bit, precedence and length, the body, the check high bit first. -/
def Notice.lineBits (station : Nat) (n : Notice) : List Bool :=
  let check := (noticeCheck n.kind station n.body.length n.body).toNat
  false :: (headerBytes n.kind station n.body.length ++ n.body ++ [u8 (check / 256), u8 check]).flatMap byteBits

/-- R154: what follows a notice's check as this station drives it: for a POLL the 32 slots of its window, recessive but
for the own slot where the station drives it, and the end marker's eight recessive bits. -/
def Notice.tailBits (station : Nat) (ownSlot : Bool) (n : Notice) : List Bool :=
  (if n.kind = 1 then (List.range 32).map fun k => !(ownSlot && k == station) else []) ++ List.replicate 8 true

/-! ### Stored places -/

/-- 12: an erased place: every byte 0 and a good check over them. -/
def erasedPlace (length : Nat) : List Byte := withCheck (List.replicate length 0)

/-- 12: a stored slab record: contents padded with zeros to 60, the state, the check. -/
def SlabRecord.stored (r : SlabRecord) : List Byte :=
  let c := contentsBytes r.id r.contents
  withCheck (c ++ List.replicate (60 - c.length) 0 ++ [u8 r.state.code])

/-- 12: a stored slab place. -/
def slabPlaceBytes : Option SlabRecord → List Byte
  | some r => r.stored
  | none => erasedPlace 61

/-- 12: a stored job record. The estimate's bytes are 0 where it is absent (DESIGN CHOICE, log entry 49). -/
def JobRecord.stored (j : JobRecord) : List Byte :=
  withCheck (le16 j.number ++ [u8 j.storedFlags] ++ le32 (j.estimate.getD 0) ++ le32 j.segments ++ le32 j.inStone
    ++ le32 j.time ++ le32 j.recycled ++ le32 j.fresh ++ le32 j.wear ++ le32 j.solids ++ le32 j.area ++ le32 j.machine
    ++ le32 j.water ++ le32 j.wearCents ++ le32 j.disposal ++ le32 j.material ++ le32 j.total)

/-- 12: a stored job place. -/
def jobPlaceBytes : Option JobRecord → List Byte
  | some j => j.stored
  | none => erasedPlace 63

/-- 12: the 54 bytes of a configuration block, the triplicated fields with the value carried in all three copies. -/
def configPlaceBytes (c : ConfigFields) : List Byte :=
  withCheck ([u8 c.rate, u8 c.rate, u8 c.rate] ++ le16 c.supply ++ le16 c.supply ++ le16 c.supply ++ c.bytes.drop 3)

/-- 12: the calibration region. -/
def calibrationPlaceBytes (k : Nat × Nat) : List Byte := withCheck [u8 k.1, u8 k.2]

/-- R21: the slab record of a stored place, as stored; an id of 0 marks an empty place. Holder absent, heard order 0. -/
def slabOfBytes (bs : List Byte) : Option SlabRecord :=
  let (id, c) := contentsOfBytes bs
  if id = 0 then none else some ⟨id, c, slabStateOf (byteAt bs 60), none, 0⟩

/-- R150: the job record of a stored place, in-use count 0; a number of 0 marks an empty place. -/
def jobOfBytes (bs : List Byte) : Option JobRecord :=
  let flags := byteAt bs 2
  let flag (weight : Nat) : Bool := flags / weight % 2 == 1
  if u16At bs 0 = 0 then none
  else some
    { number := u16At bs 0, closed := flag 1, estimate := if flag 2 then some (u32At bs 3) else none, inUse := 0
      segments := u32At bs 7, inStone := u32At bs 11, time := u32At bs 15, recycled := u32At bs 19
      fresh := u32At bs 23, wear := u32At bs 27, solids := u32At bs 31, area := u32At bs 35, machine := u32At bs 39
      water := u32At bs 43, wearCents := u32At bs 47, disposal := u32At bs 51, material := u32At bs 55
      total := u32At bs 59, overEstimate := flag 4, saturated := flag 8, damaged := flag 16 }

/-- R151: the DAMAGED record a stored copy with a bad check becomes. -/
def damagedJob (number : Nat) : JobRecord :=
  { number := number, closed := true, estimate := none, inUse := 0, segments := 0, inStone := 0, time := 0
    recycled := 0, fresh := 0, wear := 0, solids := 0, area := 0, machine := 0, water := 0, wearCents := 0
    disposal := 0, material := 0, total := 0, overEstimate := false, saturated := false, damaged := true }

/-- R181: three copies of a field voted: the value two or three hold, with no vote when all differ. -/
def vote (a b c : Nat) : Option Nat := if a = b ∨ a = c then some a else if b = c then some b else none

/-- R181: the fields of a stored block, voted, with whether a vote failed; the fallbacks are 125 kbit/s (code 0) and
10. -/
def configVoted (bs : List Byte) : ConfigFields × Bool :=
  let rate := vote (byteAt bs 0) (byteAt bs 1) (byteAt bs 2)
  let supply := vote (u16At bs 3) (u16At bs 5) (u16At bs 7)
  ({ configOfBytes (List.replicate 3 0 ++ bs.drop 9) with rate := rate.getD 0, supply := supply.getD 10 },
    rate.isNone || supply.isNone)

/-- R181, R127: every field held within its range; Fmax after Fmin, Qmin after Qnom, the hard limit after the
threshold. -/
def configClamped (c : ConfigFields) : ConfigFields :=
  let fmin := clampTo 100 2000 c.fmin
  let qnom := clampTo 5 120 c.qnom
  let threshold := clampTo 1000 998999 c.threshold
  { rate := clampTo 0 2 c.rate, supply := clampTo 10 2000 c.supply, f0 := clampTo 300 6000 c.f0, fmin := fmin
    fmax := clampTo fmin 8000 c.fmax, overcut := clampTo 0 5 c.overcut, kerf := clampTo 2 8 c.kerf
    hardness := c.hardness.map (clampTo 50 250), qnom := qnom, qmin := clampTo 1 qnom c.qmin
    machineRate := clampTo 0 65535 c.machineRate, priceRecycled := clampTo 0 10000 c.priceRecycled
    priceFresh := clampTo 0 10000 c.priceFresh, priceWear := clampTo 0 1000 c.priceWear
    priceDisposal := clampTo 0 1000 c.priceDisposal, makeup := clampTo 0 1 c.makeup
    freshLimit := clampTo 0 60 c.freshLimit, margin := clampTo 0 50 c.margin, guard := clampTo 0 30 c.guard
    threshold := threshold, hardLimit := clampTo (threshold + 1000) 999999 c.hardLimit, press := clampTo 0 7 c.press
    purgeTime := clampTo 60 900 c.purgeTime }

/-- R181, R182, R186: the settings start-up takes from the block and the region: CONFIG DEGRADED where a vote failed or a
check is bad, CONFIG CLAMPED where a value was outside its range. -/
def settingsOf (config calibration : List Byte) : Settings :=
  let (voted, split) := configVoted config
  let cfg := configClamped voted
  let kr := clampTo 10 250 (byteAt calibration 0)
  let kf := clampTo 10 250 (byteAt calibration 1)
  { cfg := cfg, kRecycled := kr, kFresh := kf
    clamped := cfg != voted || kr != byteAt calibration 0 || kf != byteAt calibration 1
    degraded := split || !goodCheck config || !goodCheck calibration }

end Sys2Proof.Machine
end

