-- ==== Sys2Proof/Machine/Ops.lean ====
section
/-! DEFINITION. The operations the blocks share, below any command: admitting and withdrawing report frames (R71, R172,
R173), taking a command (R171), the store write queue (R183), the transmit queue (R161, R162), looking up and changing
records of the register, the claim table and the cost table. -/

namespace Sys2Proof.Machine

/-! ### Outbound queue -/

/-- R172: the bytes an outbound queue holds. -/
def heldBytes (q : List Outbound) : Nat := (q.map (·.report.size)).sum

/-- R172: whether an ordinary report is admitted: the frames held stay at or below 18 and the bytes at or below 672. -/
def admits (r : Report) (s : State) : Bool :=
  s.host.outbound.length + 1 ≤ 18 && heldBytes s.host.outbound + r.size ≤ 672

/-- R172: an ordinary report is admitted at the tail, or dropped and counted. -/
def report (r : Report) (s : State) : State :=
  if admits r s then { s with host := { s.host with outbound := s.host.outbound ++ [⟨r, false⟩] } }
  else { s with host := { s.host with dropped := bump16 s.host.dropped } }

/-- R172: several frames, each judged on its own. -/
def reports (rs : List Report) (s : State) : State := rs.foldl (fun s r => report r s) s

/-- R92: a trap, with the plan number and segment index where they are concerned. -/
def trap (t : Trap) (plan : Nat) (segment : Option Nat) (s : State) : State := report (.trap t plan segment) s

/-- R71: whether a frame waiting in the queue is an unread update frame for a tag. -/
def isUnreadUpdate (tag : Nat) (f : Outbound) : Bool := !f.begun && f.report.updateTag == some tag

/-- R71: the queue with a newer update frame in the place of the unread one for its tag. -/
def replaceUpdate (r : Report) (tag : Nat) : List Outbound → List Outbound
  | [] => []
  | f :: rest => if isUnreadUpdate tag f then ⟨r, false⟩ :: rest else f :: replaceUpdate r tag rest

/-- R71: the queue an order frame leads to: an update frame takes the place of an unread one for the same tag; any other
order frame goes to the tail. -/
def withOrderFrame (r : Report) (q : List Outbound) : List Outbound :=
  match r.updateTag with
  | some tag => if q.any (isUnreadUpdate tag) then replaceUpdate r tag q else q ++ [⟨r, false⟩]
  | none => q ++ [⟨r, false⟩]

/-- R71, R172: an order frame is admitted when the frames held stay at or below 20 and the bytes at or below 768. The
plan slots keep to the reserve, so the test does not fail. -/
def orderFrame (r : Report) (s : State) : State :=
  let q := withOrderFrame r s.host.outbound
  if q.length ≤ 20 ∧ heldBytes q ≤ 768 then { s with host := { s.host with outbound := q } } else s

/-- R71, R173: every unread order frame carrying a tag is withdrawn. -/
def withdrawOrders (tag : Nat) (s : State) : State :=
  { s with host := { s.host with outbound := s.host.outbound.filter fun f => f.begun || f.report.orderTag != some tag } }

/-! ### Inbound queue -/

/-- R170: the bytes an entry of the inbound queue takes: a malformed entry is 2 bytes. -/
def inboundSize : Inbound → Nat
  | .frame _ body => 2 + body.length
  | .malformed _ => 2

/-- R169: whether one more frame of `size` bytes fitted what the inbound queue held when its length byte arrived, the last
`since` commands to be taken being still in it then (log entry 9). -/
def fitsAtLength (size since : Nat) (h : HostLink) : Bool :=
  let gone := h.taken.take since
  h.inbound.length + gone.length + 1 ≤ 12 && (h.inbound.map inboundSize).sum + gone.sum + size ≤ 384

/-- R171: the general room's free frames, 0 when negative. -/
def generalFrames (s : State) : Nat := 18 - s.host.outbound.length

/-- R171: the general room's free bytes, 0 when negative. -/
def generalBytes (s : State) : Nat := 672 - heldBytes s.host.outbound

/-- R171: the test under which the link takes a command. -/
def commandRoom (s : State) : Bool := 4 ≤ generalFrames s && 248 ≤ generalBytes s

/-- The command a queue entry spells, none for a malformed one or a body of the wrong length (R170). -/
def inboundCommand (straps : Nat) : Inbound → Option Instr
  | .frame kind body => decodeCommand straps kind body
  | .malformed _ => none

/-- R171: a command is taken when it stands at the head of the inbound queue and the room test passes. -/
def canTake (straps : Nat) (c : Instr) (s : State) : Bool :=
  commandRoom s && (s.host.inbound.head?.bind (inboundCommand straps) == some c)

/-- R171: the command leaves the inbound queue, its size noted for the frame that may be arriving (R169). -/
def popInbound (s : State) : State :=
  { s with host := { s.host with
      inbound := s.host.inbound.tail, taken := (s.host.inbound.take 1).map inboundSize ++ s.host.taken } }

/-- R171: the ACCEPTED reply with its result fields. -/
def acceptWith (command : Nat) (fields : Accepted) (s : State) : State := report (.accepted command fields) s

/-- R171: the bare ACCEPTED reply. -/
def accept (command : Nat) (s : State) : State := acceptWith command .bare s

/-- R171: the REFUSED reply; a refused command changes nothing else. -/
def refuse (command : Nat) (why : Reason) (s : State) : State := report (.refused command why) s

/-! ### Store write queue (R183) -/

/-- R183: a change to a place adds an entry at the tail unless one is pending. A write in flight is pending no more. -/
def queueWrite (p : StorePlace) (s : State) : State :=
  if p ∈ s.store.queue then s else { s with store := { s.store with queue := s.store.queue ++ [p] } }

/-- R183: the bytes a place holds as its entry goes out. -/
def placeBytes (s : State) : StorePlace → List Byte
  | .slab i => slabPlaceBytes (s.register.places.getD i none)
  | .job i => jobPlaceBytes (s.jobs.getD i none)
  | .sump => withCheck (le32 s.sump.volume)
  | .serial => withCheck (le16 s.register.serial)
  | .config => s.store.newConfig.elim s.store.config configPlaceBytes
  | .calibration => s.store.newCalibration.elim s.store.calibration calibrationPlaceBytes
  | .erase => []

/-- R183, R185: how long the store may take: 5 ms for a write, 450 ms for the erase. -/
def writeTime : StorePlace → Nat
  | .erase => 450
  | _ => 5

/-- R183: entries go out one at a time from the head. Run at the end of every step that can queue a write. -/
def launchWrite (s : State) : State :=
  match s.store.inFlight, s.store.queue with
  | none, p :: rest =>
      { s with store := { s.store with queue := rest, inFlight := some ⟨p, placeBytes s p, writeTime p⟩ } }
  | _, _ => s

/-- A place of the store takes bytes. -/
def Store.put (st : Store) (p : StorePlace) (bytes : List Byte) : Store :=
  match p with
  | .slab i => { st with slabs := st.slabs.set i bytes }
  | .job i => { st with jobs := st.jobs.set i bytes }
  | .sump => { st with sump := bytes }
  | .serial => { st with serial := bytes }
  | .config => { st with config := bytes }
  | .calibration => { st with calibration := bytes }
  | .erase => st

/-- R185: the erase clears the 64 slab places and then the 24 job places: the first `n` of them cleared. -/
def Store.eraseFirst (st : Store) (n : Nat) : Store :=
  { st with
    slabs := st.slabs.mapIdx fun i b => if i < n then erasedPlace 61 else b
    jobs := st.jobs.mapIdx fun i b => if 64 + i < n then erasedPlace 63 else b }

/-- The bytes a place of the store holds. -/
def Store.bytesAt (st : Store) : StorePlace → List Byte
  | .slab i => st.slabs.getD i []
  | .job i => st.jobs.getD i []
  | .sump => st.sump
  | .serial => st.serial
  | .config => st.config
  | .calibration => st.calibration
  | .erase => []

/-- Bytes whose check fails: a good check is broken in its last byte. -/
def spoilt (bytes : List Byte) : List Byte :=
  if goodCheck bytes then bytes.modify (bytes.length - 1) (· ^^^ 1#8) else bytes

/-- R21, R150, R179: what a write that did not complete left in its place: the copy before it, its own bytes, or a copy
whose check fails, free which and free the last one's bytes (log entry 12). -/
def leftBytes (use : Nat) (before written : List Byte) : List Byte :=
  match Config.storeOutcome use % 3 with
  | 0 => before
  | 1 => written
  | _ => spoilt ((List.range written.length).map (Config.storeLeft use))

/-- A place left as a write of some bytes that did not complete left it. -/
def Store.leaveAt (st : Store) (use : Nat) (p : StorePlace) (written : List Byte) : Store :=
  st.put p (leftBytes use (st.bytesAt p) written)

/-- R179, R183, R185: the store after a write that did not complete. A place is as the store left it; an erase has
cleared some places in order, and the place it was clearing is as the store left it. -/
def Store.leave (st : Store) (use : Nat) (w : StoreWrite) : Store :=
  match w.place with
  | .erase =>
      let n := Config.eraseReached use % 89
      let st := st.eraseFirst n
      if n < 64 then st.leaveAt use (.slab n) (erasedPlace 61) else st.leaveAt use (.job (n - 64)) (erasedPlace 63)
  | p => st.leaveAt use p w.bytes

/-! ### Slab register lookups (R3) -/

/-- The record of an id. -/
def findSlab (s : State) (id : Nat) : Option SlabRecord :=
  s.register.places.findSome? fun o => o.filter (·.id == id)

/-- The place of an id's record. -/
def slabPlace (s : State) (id : Nat) : Option Nat := s.register.places.findIdx? fun o => o.any (·.id == id)

/-- The contents of an id's record; blank ones where there is no record. -/
def contentsOf (s : State) (id : Nat) : SlabContents := ((findSlab s id).map (·.contents)).getD default

/-- An id's record changed. -/
def mapSlab (id : Nat) (f : SlabRecord → SlabRecord) (s : State) : State :=
  { s with register := { s.register with
      places := s.register.places.map (Option.map fun r => if r.id = id then f r else r) } }

/-- R3: a change to a record's contents or state queues a write of that record. -/
def storeSlab (id : Nat) (s : State) : State := (slabPlace s id).elim s fun i => queueWrite (.slab i) s

/-- R6: a change of a record's state, with its store write. -/
def setSlabState (id : Nat) (st : SlabState) (s : State) : State :=
  storeSlab id (mapSlab id (fun r => { r with state := st }) s)

/-- R7: a record's holder field. Nothing changes when there is no record. -/
def setHolder (id : Nat) (h : Option Nat) (s : State) : State := mapSlab id (fun r => { r with holder := h }) s

/-- R7: a holder field cleared where it names station `k`. -/
def clearHolder (id k : Nat) (s : State) : State :=
  mapSlab id (fun r => if r.holder = some k then { r with holder := none } else r) s

/-- R8: a record stamped with the advanced heard-order counter. -/
def stampSlab (id : Nat) (s : State) : State :=
  let n := add32 s.register.heard 1
  mapSlab id (fun r => { r with heard := n }) { s with register := { s.register with heard := n } }

/-- R11: the refused-notice count rises by one. -/
def countRefused (s : State) : State :=
  { s with register := { s.register with refused := bump16 s.register.refused } }

/-! ### Claim table lookups (R22) -/

/-- The entry on a resource. -/
def claimOn (s : State) (resource : Nat) : Option ClaimEntry := s.claims.entries.find? (·.resource == resource)

/-- The entry of a handle. -/
def claimOf (s : State) (handle : Nat) : Option ClaimEntry := s.claims.entries.find? (·.handle == handle)

/-- An entry changed. -/
def mapClaim (handle : Nat) (f : ClaimEntry → ClaimEntry) (s : State) : State :=
  { s with claims := { s.claims with
      entries := s.claims.entries.map fun e => if e.handle = handle then f e else e } }

/-- An entry leaves the table. -/
def removeClaim (handle : Nat) (s : State) : State :=
  { s with claims := { s.claims with entries := s.claims.entries.filter (·.handle != handle) } }

/-- Whether the table holds a resource in stage HELD. -/
def isHeld (s : State) (resource : Nat) : Bool := (claimOn s resource).any (·.stage == .held)

/-- R23: a station drives its slot in a window for a resource its table holds in TENTATIVE or HELD. -/
def drivesSlot (s : State) (resource : Nat) : Bool :=
  (claimOn s resource).any fun e => e.stage == .tentative || e.stage == .held

/-- R29: the CLAIM of an entry is sent or dropped: DONE, and the settle timer starts at 30 ms. -/
def claimSettles (handle : Nat) (s : State) : State :=
  mapClaim handle (fun e => { e with notice := .done, settle := some 30 }) s

/-! ### Transmit queue (R161, R162) -/

/-- R161: an entry's place: after every entry of its own or a higher precedence. -/
def insertTx (e : TxEntry) : List TxEntry → List TxEntry
  | [] => [e]
  | x :: rest => if e.notice.kind < x.notice.kind then e :: x :: rest else x :: insertTx e rest

/-- R162: the youngest waiting entry of the lowest precedence. -/
def worstWaiting (q : List TxEntry) : Option TxEntry :=
  (q.filter (!·.sending)).foldl (fun best e =>
    match best with
    | none => some e
    | some b =>
        if b.notice.kind < e.notice.kind ∨ (b.notice.kind = e.notice.kind ∧ b.age < e.age) then some e else best) none

/-- R161, R162: a notice handed to the queue, with the entry dropped when the queue of 16 was full (which may be the new
one). -/
def Floor.enqueue (f : Floor) (n : Notice) (owner : Option Nat) : Floor × Option TxEntry :=
  let e : TxEntry := ⟨n, owner, 0, f.nextAge, false, false⟩
  let f := { f with nextAge := f.nextAge + 1 }
  if f.queue.length < 16 then ({ f with queue := insertTx e f.queue }, none)
  else match worstWaiting f.queue with
    | some w =>
        if n.kind < w.notice.kind then ({ f with queue := insertTx e (f.queue.erase w) }, some w) else (f, some e)
    | none => (f, some e)

/-- R162: a drop from a full queue raises the backlog-drop count. -/
def countBacklog (s : State) : State :=
  { s with floor := { s.floor with backlogDrops := bump16 s.floor.backlogDrops } }

/-- R29, R15, R113: what the owner of a dropped notice other than a POLL does: a CLAIM settles, the others nothing. -/
def ownerDropped (e : TxEntry) (s : State) : State :=
  match e.notice, e.owner with
  | .claim _ _, some h => if e.yielded then s else claimSettles h s
  | _, _ => s

/-- R161, R162: a notice other than a POLL is handed to the transmit queue. A drop is counted, reported to the dropped
notice's owner and trapped LINE BACKLOG. (A full queue never drops a POLL for a notice that is none.) -/
def handNotice (n : Notice) (owner : Option Nat) (s : State) : State :=
  match s.floor.enqueue n owner with
  | (f, none) => { s with floor := f }
  | (f, some d) =>
      trap (.lineBacklog d.notice.kind) 0 none (ownerDropped d (countBacklog { s with floor := f }))

/-- R15: the register hands notices while LISTENING or ACTIVE and none while INERT or MUTED. -/
def announce (n : Notice) (s : State) : State :=
  if s.floor.attach = .listening ∨ s.floor.attach = .active then handNotice n none s else s

/-- R15: the SLAB notice of an id's record, with its contents as they stand. -/
def announceSlab (id : Nat) (s : State) : State := announce (.slab id (contentsOf s id)) s

/-! ### Cost table lookups (R137) -/

/-- The record of a job number. -/
def findJob (s : State) (number : Nat) : Option JobRecord := s.jobs.findSome? fun o => o.filter (·.number == number)

/-- The place of a job's record. -/
def jobPlace (s : State) (number : Nat) : Option Nat := s.jobs.findIdx? fun o => o.any (·.number == number)

/-- A job's record changed. -/
def mapJob (number : Nat) (f : JobRecord → JobRecord) (s : State) : State :=
  { s with jobs := s.jobs.map (Option.map fun j => if j.number = number then f j else j) }

/-- R149: a change to a stored field of a record queues its write. -/
def storeJob (number : Nat) (s : State) : State := (jobPlace s number).elim s fun i => queueWrite (.job i) s

/-- R142: whether a job is present and OPEN. -/
def jobOpen (s : State) (number : Nat) : Bool := (findJob s number).any (!·.closed)

/-- R141: a plan's hold on each of its distinct jobs begins. -/
def holdJobs (jobs : List Nat) (s : State) : State :=
  jobs.foldl (fun s j => mapJob j (fun r => { r with inUse := r.inUse + 1 }) s) s

/-- R141: a plan's hold on each of its distinct jobs ends. -/
def releaseJobs (jobs : List Nat) (s : State) : State :=
  jobs.foldl (fun s j => mapJob j (fun r => { r with inUse := r.inUse - 1 }) s) s

/-! ### Measured times -/

/-- A time in tenths from milliseconds; a part of a tenth is rounded by a free choice (log entry 7). -/
def tenthsOf (ms : Nat) : Nat := if ms % 100 = 0 then ms / 100 else ms / 100 + bitIf (Config.tenthsRoundUp ms) 1

end Sys2Proof.Machine
end

