-- ==== Sys2Proof/Machine/OpsJobs.lean ====
section
/-! DEFINITION. Postings to the cost table (R143 to R149). -/

namespace Sys2Proof.Machine

/-- R146: the total of a record's five components, saturated. -/
def JobRecord.componentTotal (j : JobRecord) : Nat :=
  sat32 (j.machine + j.water + j.wearCents + j.disposal + j.material)

/-- 12: the counts of a record in the order of the SATURATED field codes 1..14. -/
def JobRecord.counts (j : JobRecord) : List Nat :=
  [j.segments, j.inStone, j.time, j.recycled, j.fresh, j.wear, j.solids, j.area, j.machine, j.water, j.wearCents,
    j.disposal, j.material, j.total]

/-- R147: the first field, numbered from `k`, that was below the maximum and now stands at it. -/
def firstSaturated : Nat → List Nat → List Nat → Option Nat
  | k, a :: before, b :: after => if a < max32 ∧ b = max32 then some k else firstSaturated (k + 1) before after
  | _, _, _ => none

/-- R143: a portion added to a record. -/
def JobRecord.addPortion (p : Portion) (first : Bool) (j : JobRecord) : JobRecord :=
  { j with
    segments := add32 j.segments (bitIf first 1), inStone := add32 j.inStone p.inStone, time := add32 j.time p.time
    recycled := add32 j.recycled p.recycled, fresh := add32 j.fresh p.fresh, wear := add32 j.wear p.wear
    solids := add32 j.solids p.solids, machine := add32 j.machine p.machine, water := add32 j.water p.water
    wearCents := add32 j.wearCents p.wearCents, disposal := add32 j.disposal p.disposal }

/-- R144: an area share and its material cents added to a record. -/
def JobRecord.addMaterial (area cents : Nat) (j : JobRecord) : JobRecord :=
  { j with area := add32 j.area area, material := add32 j.material cents }

/-- R147: the SATURATED field a posting brings about, where the record's flag is clear. -/
def newlySaturated (old new : JobRecord) : Option Nat :=
  if old.saturated then none else firstSaturated 1 old.counts new.counts

/-- R148: whether a posting takes the total above a present estimate, where the flag is clear. -/
def newlyOver (old new : JobRecord) : Bool := !old.overEstimate && new.estimate.any (· < new.total)

/-- R146 to R148: a record after a posting's additions: the total worked afresh, the two flags judged. -/
def JobRecord.settle (old added : JobRecord) : JobRecord :=
  let new := { added with total := added.componentTotal }
  { new with
    saturated := old.saturated || (newlySaturated old new).isSome
    overEstimate := old.overEstimate || newlyOver old new }

/-- R145 to R149: a posting to a job: its additions, the total, the flags, the store write, then SATURATED before JOB
OVER ESTIMATE. -/
def postJob (number : Nat) (add : JobRecord → JobRecord) (s : State) : State :=
  match findJob s number with
  | none => s
  | some old =>
      let new := old.settle (add old)
      let s := storeJob number (mapJob number (fun _ => new) s)
      let s := match newlySaturated old new with
        | some field => trap (.saturated number field) 0 none s
        | none => s
      if newlyOver old new then trap (.jobOverEstimate number (new.estimate.getD 0) new.total) 0 none s else s

/-- R144: the material postings of a settlement, in job-line order. -/
def postMaterial (lines : List ShareLine) (s : State) : State :=
  lines.foldl (fun s l => postJob l.job (JobRecord.addMaterial l.area l.cents) s) s

end Sys2Proof.Machine
end

