-- ==== Sys2Proof/Machine/OpsRegister.lean ====
section
/-! DEFINITION. The slab register's operations: room and eviction (R9), reservations (R10), issuing an id (R2), making a
record (R8, R11), removing one (R3), the announce sweep (R16). -/

namespace Sys2Proof.Machine

/-- The records of the register. -/
def slabRecords (s : State) : List SlabRecord := s.register.places.filterMap fun o => o

/-- The plan of the staged slot, in any state but EMPTY. -/
def Staged.plan? : Staged → Option Plan
  | .empty => none
  | .loading p => some p
  | .valid p => some p
  | .rejected p _ => some p
  | .stale p _ => some p

/-- R9: the active states in which the slot references its plan's slab. -/
def ActiveState.refersToSlab : ActiveState → Bool
  | .running => true
  | .paused => true
  | .ending => true
  | .aborted => true
  | .empty => false
  | .done => false

/-- R9: a plan slot references a slab: the staged slot in any state but EMPTY, the active slot in RUNNING, PAUSED, ENDING
or ABORTED. -/
def isReferenced (s : State) (id : Nat) : Bool :=
  s.staged.plan?.any (·.slab == id) || (s.active.state.refersToSlab && s.active.plan.slab == id)

/-- R9: a record that may be evicted: GONE, or STOCK originated elsewhere, with no claim entry and no plan slot on it. -/
def isEvictable (s : State) (r : SlabRecord) : Bool :=
  (r.state == .gone || (r.state == .stock && !s.isOwn r.id)) && (claimOn s r.id).isNone && !isReferenced s r.id

/-- R8: the record of older heard order; of equal ones, that of the lower id. -/
def olderRecord (a b : SlabRecord) : Bool := a.heard < b.heard || (a.heard == b.heard && a.id < b.id)

/-- R8: the oldest of some records. -/
def oldestOf : List SlabRecord → Option SlabRecord
  | [] => none
  | r :: rest => some (rest.foldl (fun best x => if olderRecord x best then x else best) r)

/-- R9: the candidates for eviction. -/
def evictionCandidates (s : State) : List SlabRecord := (slabRecords s).filter (isEvictable s)

/-- R9: the record to evict: the oldest GONE candidate, else the oldest STOCK one. -/
def evictionChoice (s : State) : Option SlabRecord :=
  match oldestOf ((evictionCandidates s).filter (·.state == .gone)) with
  | some r => some r
  | none => oldestOf ((evictionCandidates s).filter (·.state == .stock))

/-- R9: the free places: 64 less the records, less the reservations. -/
def freePlaces (s : State) : Nat := 64 - (slabRecords s).length - s.register.reservations

/-- R3, R6: a record leaves the register, the removal of its stored copy queued. -/
def removeSlab (id : Nat) (s : State) : State :=
  let s := storeSlab id s
  { s with register := { s.register with places := s.register.places.map fun o => o.filter (·.id != id) } }

/-- R9: a place for a new record, by eviction when none is free; none when there is no candidate either. -/
def makeRoom (s : State) : Option State :=
  if 0 < freePlaces s then some s else (evictionChoice s).map fun r => removeSlab r.id s

/-- R2: the serial after a serial. -/
def nextSerial (n : Nat) : Nat := if 2047 ≤ n then 1 else n + 1

/-- R2: the first serial from `n` on that no record of this station holds, within so many tries. -/
def freeSerial (s : State) : Nat → Nat → Nat
  | 0, n => n
  | tries + 1, n => if (findSlab s (s.own * 2048 + n)).isSome then freeSerial s tries (nextSerial n) else n

/-- R2: the serial the counter would issue. -/
def serialToIssue (s : State) : Nat := freeSerial s 65 s.register.serial

/-- R1, R2: the id the counter would issue. -/
def idToIssue (s : State) : Nat := s.own * 2048 + serialToIssue s

/-- R2: the serial issued, the counter advances past it and its write is queued. -/
def advanceSerial (s : State) : State :=
  queueWrite .serial { s with register := { s.register with serial := nextSerial (serialToIssue s) } }

/-- R9: the lowest-numbered place that holds no record. -/
def lowestFree (s : State) : Option Nat := s.register.places.findIdx? (·.isNone)

/-- R6, R8, R9, R11: a STOCK record made in the lowest free place, holder absent, freshly stamped, its write queued. -/
def makeSlab (id : Nat) (c : SlabContents) (s : State) : State :=
  let n := add32 s.register.heard 1
  match lowestFree s with
  | none => s
  | some i =>
      queueWrite (.slab i) { s with register := { s.register with
        heard := n, places := s.register.places.set i (some ⟨id, c, .stock, none, n⟩) } }

/-- R10: reservations subtracted. -/
def dropReservations (n : Nat) (s : State) : State :=
  { s with register := { s.register with reservations := s.register.reservations - n } }

/-- R10, R57: how many places the register could offer: its free places and its eviction candidates. -/
def placesOnOffer (s : State) : Nat := freePlaces s + (evictionCandidates s).length

/-- R10: candidates evicted in R9's order until `n` places are free, at most `fuel` of them. -/
def evictUntil (n : Nat) : Nat → State → State
  | 0, s => s
  | fuel + 1, s =>
      if n ≤ freePlaces s then s
      else match evictionChoice s with
        | some r => evictUntil n fuel (removeSlab r.id s)
        | none => s

/-- R10: `n` reservations taken, with what it takes evicted; none when the register answers no. -/
def reserve (n : Nat) (s : State) : Option State :=
  if n ≤ placesOnOffer s then
    let s := evictUntil n n s
    some { s with register := { s.register with reservations := s.register.reservations + n } }
  else none

/-- R16: an own-originated STOCK record above the cursor. -/
def isSweepable (s : State) (cursor : Nat) (r : SlabRecord) : Bool :=
  r.state == .stock && s.isOwn r.id && cursor < r.id

/-- R16: the smallest id above the cursor that the sweep announces. -/
def sweepTarget (s : State) (cursor : Nat) : Option Nat :=
  (((slabRecords s).filter (isSweepable s cursor)).map (·.id)).min?

/-- R16: a step of the sweep from a cursor: the next record is announced and the 100 ms timer starts; the sweep ends when
there is none. -/
def sweepStep (cursor : Nat) (s : State) : State :=
  match sweepTarget s cursor with
  | some id => announceSlab id { s with register := { s.register with sweep := some ⟨id, 100⟩ } }
  | none => { s with register := { s.register with sweep := none } }

/-- R16: the sweep starts, or starts again, at cursor 0, its first step at once. -/
def startSweep (s : State) : State := sweepStep 0 s

end Sys2Proof.Machine
end

