-- ==== Sys2Proof/Machine/OpsClaims.lean ====
section
/-! DEFINITION. The claim table's operations: the outcome of a press request (R130), results (R26), polls and dropped
polls (R25, R28), yields (R30), releases (R37), muting (R41). -/

namespace Sys2Proof.Machine

/-- R130: the account goes RETRY WAIT, its retry timer at 30 s. -/
def pressRetry (s : State) : State :=
  { s with sump := { s.sump with state := .retryWait, retry := some 30000 } }

/-- R130: the grant of the press: the snapshot, the purge timer, PURGING. -/
def pressGranted (s : State) : State :=
  { s with sump := { s.sump with
      state := .purging, snapshot := s.sump.volume, purge := some (s.settings.cfg.purgeTime * 1000) } }

/-- R130, R136: the account leaves WANT PRESS for IDLE with no timer. -/
def pressIdle (s : State) : State := { s with sump := { s.sump with state := .idle } }

/-- R130: the outcome of a press request, taken in WANT PRESS. -/
def pressOutcome (result : ClaimResult) (s : State) : State :=
  if s.sump.state = .wantPress then
    match result with
    | .granted => pressGranted s
    | .muted => pressIdle s
    | .heldElsewhere => pressRetry s
    | .claimLost => pressRetry s
    | .lineNoisy => pressRetry s
  else s

/-- R7, R26: the holder field after a result. -/
def holderOnResult (id : Nat) (result : ClaimResult) (station : Option Nat) (s : State) : State :=
  match result with
  | .granted => setHolder id (some s.own) s
  | .heldElsewhere => setHolder id station s
  | .claimLost => setHolder id station s
  | .lineNoisy => s
  | .muted => s

/-- R26, R39: an entry's result: CLAIM RESULT and the holder field for a slab, the sump account's outcome for a press. -/
def reportResult (e : ClaimEntry) (result : ClaimResult) (station : Option Nat) (s : State) : State :=
  match e.purpose with
  | .slab job => holderOnResult e.resource result station (report (.claimResult e.resource job result station e.polls) s)
  | .press => pressOutcome result s

/-- R26: an entry leaves the table with a result. -/
def endClaim (handle : Nat) (result : ClaimResult) (station : Option Nat) (s : State) : State :=
  match claimOf s handle with
  | none => s
  | some e => reportResult e result station (removeClaim handle s)

/-- R28: an entry whose polls are spent ends LINE NOISY; one in TENTATIVE hands RELEASE. -/
def claimNoisy (handle : Nat) (s : State) : State :=
  match claimOf s handle with
  | none => s
  | some e =>
      let s := endClaim handle .lineNoisy none s
      if e.stage = .tentative then handNotice (.release e.resource) none s else s

/-- R25, R28, R162: a POLL of an entry handed and counted. When the full queue drops it, the entry polls again or ends;
when another notice is dropped, its owner is told. Four polls at most. -/
def handPoll : Nat → Nat → State → State
  | 0, _, s => s
  | fuel + 1, handle, s =>
      match claimOf s handle with
      | none => s
      | some e =>
          let s := mapClaim handle (fun e => { e with polls := e.polls + 1 }) s
          match s.floor.enqueue (.poll e.resource) (some handle) with
          | (f, none) => { s with floor := f }
          | (f, some d) =>
              let s := countBacklog { s with floor := f }
              let s :=
                if d.notice.kind = 1 then
                  if e.polls + 1 < 4 then handPoll fuel handle s else claimNoisy handle s
                else ownerDropped d s
              trap (.lineBacklog d.notice.kind) 0 none s

/-- R27, R28, R32: a spoiled or dropped poll: a fresh POLL while the count is below 4, LINE NOISY at 4. A HELD entry polls
no more. -/
def pollSpoiled (handle : Nat) (s : State) : State :=
  match claimOf s handle with
  | none => s
  | some e =>
      if e.stage = .held then s
      else if e.polls < 4 then handPoll 4 handle s
      else claimNoisy handle s

/-- R25, R39: an entry made in stage POLLING, and its first POLL handed. -/
def makeClaim (resource : Nat) (purpose : ClaimPurpose) (s : State) : State :=
  let handle := s.claims.nextHandle
  handPoll 4 handle { s with claims := { s.claims with
    entries := s.claims.entries ++ [⟨handle, resource, purpose, .polling, 0, .unsent, none⟩]
    nextHandle := handle + 1 } }

/-- R30: the waiting CLAIM and POLL of an entry withdrawn; its CLAIM being sent marked as that of an entry that has
yielded. -/
def withdrawOwned (handle : Nat) (s : State) : State :=
  { s with floor := { s.floor with
      queue := (s.floor.queue.filter fun t => t.sending || t.owner != some handle).map fun t =>
        if t.owner = some handle then { t with yielded := true } else t } }

/-- R30, R32: an entry yields to station `k`: CLAIM LOST. -/
def yieldClaim (handle k : Nat) (s : State) : State :=
  endClaim handle .claimLost (some k) (withdrawOwned handle s)

/-- R37: a release of a HELD entry; nothing when there is none (R38, R40). -/
def releaseClaim (resource : Nat) (s : State) : State :=
  match claimOn s resource with
  | none => s
  | some e =>
      if e.stage = .held then
        let s := handNotice (.release resource) none (removeClaim e.handle s)
        match e.purpose with
        | .slab _ => setHolder resource none s
        | .press => s
      else s

/-- R41: an entry as the station is muted. The sump account is told MUTED at R136's own step. -/
def muteClaim (e : ClaimEntry) (s : State) : State :=
  let s := removeClaim e.handle s
  match e.purpose with
  | .slab job =>
      if e.stage = .held then clearHolder e.resource s.own s
      else report (.claimResult e.resource job .muted none e.polls) s
  | .press => s

/-- R41: the claim table empties itself, in table order. -/
def muteClaims (s : State) : State := s.claims.entries.foldl (fun s e => muteClaim e s) s

end Sys2Proof.Machine
end

