-- ==== Sys2Proof/Machine/OpsSump.lean ====
section
/-! DEFINITION. The sump account's requests (R129, R39), additions (R126) and muting (R136). -/

namespace Sys2Proof.Machine

/-- R127: the resource id of the station's press. -/
def ownPress (s : State) : Nat := pressId s.settings.cfg.press

/-- R39, R130: the press request checked: MUTED, LINE INERT, an entry present, a full table; otherwise an entry made. A
refusal is its outcome at once; one for any reason but MUTED is a claim not granted (log entry 21). -/
def requestPress (s : State) : State :=
  if s.floor.attach = .muted then pressOutcome .muted s
  else if s.floor.attach ≠ .active then pressRetry s
  else if (claimOn s (ownPress s)).isSome then pressRetry s
  else if 8 ≤ s.claims.entries.length then pressRetry s
  else makeClaim (ownPress s) .press s

/-- R129: the account goes WANT PRESS and asks for the press. -/
def wantPress (s : State) : State := requestPress { s with sump := { s.sump with state := .wantPress } }

/-- R129: whether V calls for a purge. -/
def purgeDue (s : State) : Bool :=
  s.settings.cfg.threshold ≤ s.sump.volume && s.floor.attach == .active

/-- R129: the test in IDLE. -/
def testThreshold (s : State) : State :=
  if s.sump.state = .idle ∧ purgeDue s = true then wantPress s else s

/-- R126: V set, its write queued where it changes. -/
def setVolume (v : Nat) (s : State) : State :=
  if v = s.sump.volume then s else queueWrite .sump { s with sump := { s.sump with volume := v } }

/-- R126, R129: solids added to V, saturating at 999,999, and the threshold tested. -/
def addSolids (v : Nat) (s : State) : State := testThreshold (setVolume (satAdd 999999 s.sump.volume v) s)

/-- R136: muting: WANT PRESS and PURGING go IDLE, the purge timer stops, V and the snapshot stand. -/
def muteSump (s : State) : State :=
  match s.sump.state with
  | .wantPress => pressIdle s
  | .purging => pressIdle { s with sump := { s.sump with purge := none } }
  | .idle => s
  | .retryWait => s

end Sys2Proof.Machine
end

