-- ==== Sys2Proof/Machine/OpsWater.lean ====
section
/-! DEFINITION. The water share unit (R111 to R118, R123) and the plan slots' answers to it while an order is in flight
(R72, R73), with pending causes and fault records (R81, R82). -/

namespace Sys2Proof.Machine

/-! ### Pending causes -/

/-- R82: the record a cause opens. -/
def openRecord (s : State) (cause : Cause) (segment : Nat) (kind : OrderKind) (reached : Point) : FaultRecord :=
  { cls := .fault, cause := cause, prior := none, plan := s.active.plan.number, segment := segment, kind := kind
    reached := reached, origin := cause.origin }

/-- R81, R82: a cause added to the pending set; a record opened when none is; FAULT handed with the record and the set. -/
def addCause (cause : Cause) (segment : Nat) (kind : OrderKind) (reached : Point) (s : State) : State :=
  let record := s.active.fault.getD (openRecord s cause segment kind reached)
  let pending := s.active.pending.add cause
  report (.fault record pending) { s with active := { s.active with pending := pending, fault := some record } }

/-! ### Changes of water with an order in flight -/

/-- R70, R72, R98: the base feed of the active plan's segment at an index, from its slab's record. -/
def segmentFeed (s : State) (segment : Nat) : Nat :=
  let c := contentsOf s s.active.plan.slab
  let cfg := s.settings.cfg
  baseFeed cfg (effectiveDepth c.thickness cfg.overcut (s.active.plan.segmentAt segment)) c.cls

/-- R72: FEED UPDATE when the new feed limit differs from the last one sent. -/
def updateFeed (o : Order) (s : State) : State :=
  match feedLimit s.settings.cfg (segmentFeed s o.segment) s.water.effective with
  | none => s
  | some f =>
      if f = o.feed then s
      else
        let s := orderFrame (.feedUpdate o.tag o.segment f s.water.effective) s
        { s with active := { s.active with order := some { o with feed := f, water := s.water.effective } } }

/-- R73: HOLD ORDER handed, the held flag set, WATER SHORT added. The valves follow the flag. -/
def holdOrder (o : Order) (s : State) : State :=
  let s := orderFrame (.holdOrder o.tag o.segment) s
  addCause .waterShort s.active.nextSeg o.kind o.start
    { s with active := { s.active with order := some { o with held := true } } }

/-- R72, R73: what the plan slots do with a new E: in RUNNING, an order neither held nor stopped is updated or held. -/
def planOnWater (s : State) : State :=
  match s.active.order with
  | none => s
  | some o =>
      if s.active.state = .running ∧ o.held = false ∧ o.stopped = false then
        if s.water.effective < s.settings.cfg.qmin then holdOrder o s else updateFeed o s
      else s

/-! ### The allotment -/

/-- R114: a peer's demand as counted: that of an entry in PRESENT or LAPSED. -/
def countedDemand (p : Peer) : Nat := if p.presence = .absent then 0 else p.demand

/-- R114, R115: the demands of the peers counted; the entry of this station's own number is not used. -/
def peerDemands (s : State) : Nat :=
  (s.peers.mapIdx fun k p => if s.station.number = some k then 0 else countedDemand p).sum

/-- R115: the sum of demands. -/
def demandSum (s : State) : Nat := s.water.own + peerDemands s

/-- R115: the allotment from the own demand, the sum of demands and S. -/
def allotmentOf (own sigma supply : Nat) : Nat :=
  if own = 0 then 0 else if sigma ≤ supply then own else own * supply / sigma

/-- R116: the fresh draw. -/
def freshDraw (cfg : ConfigFields) (own allotment : Nat) : Nat :=
  if cfg.makeup = 0 then 0 else min (own - allotment) cfg.freshLimit

/-- R115 to R117: the unit's figures worked afresh. -/
def waterFigures (s : State) : Water :=
  let sigma := demandSum s
  let a := allotmentOf s.water.own sigma s.settings.cfg.supply
  let f := freshDraw s.settings.cfg s.water.own a
  { s.water with sigma := sigma, allotment := a, fresh := f, effective := a + f }

/-- R118: the dwell runs while WATER SHORT is pending and E is at or above Qmin, from a full second each time. -/
def judgeDwell (s : State) : State :=
  let timer : Timer :=
    if s.active.pending.waterShort = true ∧ s.settings.cfg.qmin ≤ s.water.effective then
      some (s.water.dwell.getD 1000)
    else none
  { s with water := { s.water with dwell := timer } }

/-- R114, R117: a recompute: the new figures held; where A or E differs the plan slots told the new E; where any figure
differs the dwell judged. -/
def recomputeWater (s : State) : State :=
  let new := waterFigures s
  let old := s.water
  let s := { s with water := new }
  let s := if new.allotment ≠ old.allotment ∨ new.effective ≠ old.effective then planOnWater s else s
  if new.allotment ≠ old.allotment ∨ new.fresh ≠ old.fresh ∨ new.effective ≠ old.effective then judgeDwell s else s

/-! ### Own demand -/

/-- R113: whether a queue entry is a DEMAND that waits. -/
def isWaitingDemand (e : TxEntry) : Bool := !e.sending && e.notice.kind == 4

/-- R113: the newer content in the place of a waiting DEMAND, with a fresh count of attempts. -/
def replaceDemand (value : Nat) (q : List TxEntry) : List TxEntry :=
  q.map fun e => if isWaitingDemand e then { e with notice := .demand value, attempts := 0 } else e

/-- R112: how long until the refresh: 500 ms when the demand is not 0, 1.5 s when it is. -/
def refreshTime (demand : Nat) : Nat := if demand = 0 then 1500 else 500

/-- R112, R113: a DEMAND with the own demand handed while ACTIVE, in the place of one that waits; the refresh timer
restarts. -/
def sendDemand (s : State) : State :=
  if s.floor.attach = .active then
    let s :=
      if s.floor.queue.any isWaitingDemand then
        { s with floor := { s.floor with queue := replaceDemand s.water.own s.floor.queue } }
      else handNotice (.demand s.water.own) none s
    { s with water := { s.water with refresh := some (refreshTime s.water.own) } }
  else s

/-- R111: the own demand that the active slot's state and pending set call for. -/
def ownDemandFor (s : State) : Nat :=
  match s.active.state with
  | .running => s.settings.cfg.qnom
  | .ending => s.settings.cfg.qnom
  | .paused => if s.active.pending.hasExternal then s.settings.cfg.qnom else 0
  | .empty => 0
  | .done => 0
  | .aborted => 0

/-- R111, R118: the unit told of a change of the slot's state or pending set: a changed own demand is handed and the
allotment worked afresh; the dwell is judged on the set. -/
def tellWater (s : State) : State :=
  let d := ownDemandFor s
  let s :=
    if d = s.water.own then s
    else recomputeWater (sendDemand { s with water := { s.water with own := d } })
  judgeDwell s

/-! ### Segment counts -/

/-- R123: segment counts that leave without a charge are added to the idle tallies and cleared. -/
def countsToIdle (s : State) : State :=
  { s with water := { s.water with
      idleRecycled := add32 s.water.idleRecycled s.water.segRecycled
      idleFresh := add32 s.water.idleFresh s.water.segFresh
      segRecycled := 0, segFresh := 0 } }

end Sys2Proof.Machine
end

