-- ==== Sys2Proof/Machine/OpsPlan.lean ====
section
/-! DEFINITION. The plan slots' operations: issue (R69, R70), the charge of a portion (R80), stopping an order (R86),
abort (R89), completion (R91), resuming (R85), stale plans (R62), clearing an ABORTED slot (R14). -/

namespace Sys2Proof.Machine

/-! ### Staged plans -/

/-- R45, R62, R141: a plan's reservations and in-use counts released. -/
def releasePlan (p : Plan) (s : State) : State :=
  releaseJobs (distinctJobs p.pieces) (dropReservations p.reservations s)

/-- R45, R63: the staged slot's content discarded: from VALID its reservations and in-use counts are released. -/
def discardStaged (s : State) : State :=
  match s.staged with
  | .valid p => releasePlan p { s with staged := .empty }
  | .empty => s
  | .loading _ => { s with staged := .empty }
  | .rejected _ _ => { s with staged := .empty }
  | .stale _ _ => { s with staged := .empty }

/-- R62: a VALID staged plan on the slab goes STALE; PLAN STALE is handed. -/
def stalePlan (slab : Nat) (cause : StaleCause) (s : State) : State :=
  match s.staged with
  | .valid p =>
      if p.slab = slab then
        report (.planStale p.number p.slab cause)
          (releasePlan p { s with staged := .stale { p with reservations := 0 } cause })
      else s
  | .empty => s
  | .loading _ => s
  | .rejected _ _ => s
  | .stale _ _ => s

/-! ### Issue -/

/-- The active slot in a new state, the water share unit told (R67, R111). -/
def setActiveState (st : ActiveState) (s : State) : State := tellWater { s with active := { s.active with state := st } }

/-- R70: the kind of the order to be built. -/
def nextKind (s : State) : OrderKind := if s.active.resume.isSome then .resume else .new

/-- R70: the segment to be ordered next. -/
def nextSegment (s : State) : Segment := s.active.plan.segmentAt s.active.nextSeg

/-- R70: the start of the order to be built. -/
def nextStart (s : State) : Point := s.active.resume.getD (nextSegment s).start

/-- R96: the effective depth of the segment to be ordered. -/
def nextDepth (s : State) : Nat :=
  effectiveDepth (contentsOf s s.active.plan.slab).thickness s.settings.cfg.overcut (nextSegment s)

/-- R99: the feed limit of the order to be built. The issue has tested E, so there is one. -/
def nextFeed (s : State) : Nat :=
  (feedLimit s.settings.cfg (segmentFeed s s.active.nextSeg) s.water.effective).getD s.settings.cfg.fmin

/-- R70: the ordered length of the order to be built. -/
def nextLength (s : State) : Nat := pathLength (nextSegment s).kind (nextStart s) (nextSegment s).stop

/-- R68: the tag after a tag. -/
def nextTag (tag : Nat) : Nat := (tag + 1) % 256

/-- R70: the order record. -/
def buildOrder (s : State) : Order :=
  { tag := nextTag s.active.tag, kind := nextKind s, segment := s.active.nextSeg, start := nextStart s
    stop := (nextSegment s).stop, ordered := nextLength s, depth := nextDepth s
    expected := expectedTime (nextLength s) (nextFeed s), feed := nextFeed s, water := s.water.effective
    held := false, stopped := false }

/-- R70: the overrun timer of an order: 4 × Texp + 300 tenths, in milliseconds. -/
def overrunTime (expected : Nat) : Nat := (4 * expected + 300) * 100

/-- R70: the order issued: the tag advances, the record is made, the resume point cleared, an open fault record closed,
the overrun timer started, SEGMENT ORDER handed. -/
def issueOrder (s : State) : State :=
  let o := buildOrder s
  orderFrame (.segmentOrder o (nextSegment s).bevel) { s with active := { s.active with
    order := some o, tag := o.tag, resume := none, fault := none, overrun := some (overrunTime o.expected) } }

/-- R69: the issue finds water or sump short: the cause is added and the plan goes PAUSED. -/
def pauseAtIssue (cause : Cause) (s : State) : State :=
  setActiveState .paused (addCause cause s.active.nextSeg (nextKind s) (nextStart s) s)

/-- R69: the issue. -/
def issuePlan (s : State) : State :=
  if s.water.effective < s.settings.cfg.qmin then pauseAtIssue .waterShort s
  else if s.settings.cfg.hardLimit ≤ s.sump.volume then pauseAtIssue .sumpFull s
  else issueOrder s

/-- R85: a PAUSED plan whose pending set is empty goes RUNNING, its demand is worked afresh, and it issues. -/
def resumePlan (s : State) : State := issuePlan (setActiveState .running s)

/-- R81, R83, R84: the pending set after a removal: a PAUSED plan resumes when it is empty; otherwise the water share unit
is told. -/
def setPending (p : Pending) (s : State) : State :=
  let s := { s with active := { s.active with pending := p } }
  if s.active.state = .paused ∧ p.isEmpty = true then resumePlan s else tellWater s

/-- R83: the resume dwell has ended: WATER SHORT removed if present. -/
def dwellEnded (s : State) : State :=
  if s.active.pending.waterShort then setPending { s.active.pending with waterShort := false } s else s

/-- R83, R135: V has fallen below the hard limit: SUMP FULL removed if present. -/
def sumpCleared (s : State) : State :=
  if s.active.pending.sumpFull then setPending { s.active.pending with sumpFull := false } s else s

/-! ### Ending -/

/-- R82: the class ABORT record: an open record keeps its earlier cause as the prior cause; `prior` is the prior cause
where none was open. -/
def abortRecord (s : State) (cause : Cause) (origin : Origin) (prior : Option Cause) (segment : Nat) (kind : OrderKind)
    (reached : Point) : FaultRecord :=
  { cls := .abort, cause := cause, prior := s.active.fault.elim prior fun r => some r.cause
    plan := s.active.plan.number, segment := segment, kind := kind, reached := reached, origin := origin }

/-- R86, R87, R90: the record of an abort that no report brings: an open one keeps its segment, kind and point; one
opened for the purpose names the order concerned, or the one there would have been. -/
def stopRecord (s : State) (cause : Cause) : FaultRecord :=
  match s.active.fault with
  | some r => abortRecord s cause cause.origin none r.segment r.kind r.reached
  | none =>
      match s.active.order with
      | some o => abortRecord s cause cause.origin none s.active.nextSeg o.kind o.start
      | none => abortRecord s cause cause.origin none s.active.nextSeg (nextKind s) (nextStart s)

/-- R86: the order in flight stopped: STOP ORDER handed, the stopped flag set, the overrun timer stopped, the stop wait
timer at 10 s. -/
def stopOrder (o : Order) (s : State) : State :=
  let s := orderFrame (.stopOrder o.tag o.segment) s
  { s with active := { s.active with
      order := some { o with stopped := true }, overrun := none, stopWait := some 10000 } }

/-- R86, R87: a RUNNING plan's order is stopped with a cause, and the plan goes ENDING. -/
def stopRunning (o : Order) (cause : Cause) (s : State) : State :=
  let record := stopRecord s cause
  let s := stopOrder o s
  setActiveState .ending { s with active := { s.active with fault := some record } }

/-- R89: how many segments have a portion charged. -/
def chargedCount (s : State) : Nat := (s.active.charged.filter fun b => b).length

/-- R89: the plan goes ABORTED with its final record. Segment counts held with no order in flight go to the idle tallies
(R123). -/
def abortPlan (record : FaultRecord) (s : State) : State :=
  let s := { s with active := { s.active with state := .aborted, pending := Pending.none, fault := some record } }
  let s := setSlabState s.active.plan.slab .cutOpen s
  let s := dropReservations s.active.plan.reservations s
  let s := { s with active := { s.active with plan := { s.active.plan with reservations := 0 } } }
  let s := if s.active.order.isNone then countsToIdle s else s
  report (.planAborted record s.active.nextSeg (chargedCount s) s.active.actual) (tellWater s)

/-- R74, R88, R14: the order in flight ends: its record is discarded and its timers stop. -/
def endOrder (s : State) : State :=
  { s with active := { s.active with order := none, overrun := none, stopWait := none } }

/-- R71, R14, R88: an order ends without a report: its unread frames are withdrawn, its counts go to the idle tallies. -/
def dropOrder (o : Order) (s : State) : State := countsToIdle (endOrder (withdrawOrders o.tag s))

/-- The active slot emptied; the order tag carries on (R68). -/
def emptyActive (s : State) : State := { s with active := { Active.reset with tag := s.active.tag } }

/-- R14: the ABORTED slot on a slab retired elsewhere is cleared: in-use counts, claim, order in flight. -/
def clearAborted (slab : Nat) (s : State) : State :=
  if s.active.state = .aborted ∧ s.active.plan.slab = slab then
    let s := releaseClaim slab (releaseJobs (distinctJobs s.active.plan.pieces) s)
    match s.active.order with
    | some o => emptyActive (dropOrder o s)
    | none => emptyActive s
  else s

/-- R14: the register tells the plan slots that a slab has gone. -/
def slabGone (slab : Nat) (s : State) : State := clearAborted slab (stalePlan slab .gone s)

/-! ### The charge of a portion -/

/-- R101: the point a length from an order's start, toward its end. -/
def reachedPoint (s : State) (o : Order) (length : Nat) : Point :=
  movedToward (s.active.plan.segmentAt o.segment).kind o.start o.stop length

/-- R80, R101 to R105: the portion record of a report. -/
def portionFor (s : State) (o : Order) (length time : Nat) : Portion :=
  let c := contentsOf s s.active.plan.slab
  let g := s.active.plan.segmentAt o.segment
  portionOf s.settings.cfg c.cls o.depth (inStoneLength c g.kind o.start (reachedPoint s o length)) time
    (meteredWater s.water.segRecycled s.charge.recycled s.settings.kRecycled)
    (meteredWater s.water.segFresh s.charge.fresh s.settings.kFresh)

/-- R104: the pulses handed to the charge unit: the remainders carried, the segment counts cleared. -/
def takePulses (s : State) : State :=
  { s with
    charge :=
      { recycled := meterRemainder s.water.segRecycled s.charge.recycled s.settings.kRecycled
        fresh := meterRemainder s.water.segFresh s.charge.fresh s.settings.kFresh }
    water := { s.water with segRecycled := 0, segFresh := 0 } }

/-- R80: a portion charged: posted, its solids added, its cost added to the actual total, the segment's flag set, FRESH
USED trapped where the fresh meter counted. -/
def chargePortion (o : Order) (length time : Nat) (s : State) : State :=
  let p := portionFor s o length time
  let freshPulses := s.water.segFresh
  let job := s.active.plan.jobOf (s.active.plan.segmentAt o.segment)
  let first := !s.active.charged.getD o.segment false
  let s := addSolids p.solids (postJob job (JobRecord.addPortion p first) (takePulses s))
  let s := { s with active := { s.active with
    actual := add32 s.active.actual p.cost, charged := s.active.charged.set o.segment true } }
  if 0 < freshPulses then trap (.freshUsed p.fresh) s.active.plan.number (some o.segment) s else s

/-! ### Completion -/

/-- R17: the contents of a remnant cut from a parent. -/
def remnantContents (parent : Nat) (c : SlabContents) (r : Rect) : SlabContents :=
  { cls := c.cls, thickness := c.thickness, width := r.w, height := r.h, price := c.price, parent := some parent
    defects := c.defects.filterMap (carriedDefect r) }

/-- R17: one remnant made: an id issued, a reservation taken into an occupied place. -/
def makeRemnant (parent : Nat) (c : SlabContents) (r : Rect) (s : State) : Nat × State :=
  (idToIssue s, makeSlab (idToIssue s) (remnantContents parent c r) (dropReservations 1 (advanceSerial s)))

/-- R17: the remnants made in declared order, with their ids. -/
def makeRemnants (parent : Nat) (c : SlabContents) : List Rect → State → List Nat × State
  | [], s => ([], s)
  | r :: rest, s =>
      let (id, s) := makeRemnant parent c r s
      let (ids, s) := makeRemnants parent c rest s
      (id :: ids, s)

/-- R91: COST OVER ESTIMATE when four times the actual total is greater than five times the estimated one. -/
def judgeEstimate (actual estimated : Nat) (s : State) : State :=
  if 5 * estimated < 4 * actual then trap (.costOverEstimate actual estimated) s.active.plan.number none s else s

/-- R91: the plan completes. -/
def completePlan (s : State) : State :=
  let p := s.active.plan
  let c := contentsOf s p.slab
  let lines := apportion c p.pieces (remnantArea p.remnants)
  let s := postMaterial lines s
  let s := { s with active := { s.active with
    actual := lines.foldl (fun t l => add32 t l.cents) s.active.actual } }
  let (ids, s) := makeRemnants p.slab c p.remnants s
  let s := ids.foldl (fun s id => announceSlab id s) s
  let s := announce (.retire p.slab 0) (setSlabState p.slab .gone s)
  let s := releaseClaim p.slab s
  let s := releaseJobs (distinctJobs p.pieces) s
  let s := setActiveState .done { s with active := { s.active with
    pending := Pending.none, plan := { p with reservations := p.reservations - p.remnants.length } } }
  let s := report (.planComplete p.number p.slab ids s.active.actual lines.length) s
  let s := reports (lines.map (.completeLine p.number)) s
  judgeEstimate s.active.actual (p.estimate.elim 0 (·.total)) s

/-! ### After a report -/

/-- R75, R76: the next-segment index advances. -/
def advanceSegment (s : State) : State := { s with active := { s.active with nextSeg := s.active.nextSeg + 1 } }

/-- R75: whether every segment is finished. -/
def allFinished (s : State) : Bool := s.active.plan.segments.length ≤ s.active.nextSeg

/-- R75, R76: a RUNNING plan goes on after a report: PAUSED while a cause is pending, otherwise the next order. -/
def goOn (s : State) : State := if s.active.pending.isEmpty then issuePlan s else setActiveState .paused s

/-- R76: the resume point recorded, or the index advanced when the segment is finished. -/
def recordProgress (o : Order) (length : Nat) (s : State) : State :=
  if length < o.ordered then { s with active := { s.active with resume := some (reachedPoint s o length) } }
  else advanceSegment s

end Sys2Proof.Machine
end

