-- ==== Sys2Proof/Machine/OpsFloor.lean ====
section
/-! DEFINITION. What the floor line controller does with any notice it hears: contention lost (R158), the peer table
(R164), muting on a duplicate number (R166, R90), and its line error counts (R167). -/

namespace Sys2Proof.Machine

/-- R163: the receiver is on in every attach state but INERT. -/
def receiverOn (s : State) : Bool := s.floor.attach != .inert

/-- R154: the precedence field: kind, then station number. -/
def precedenceOf (kind station : Nat) : Nat := kind * 32 + station

/-- R113: at most one DEMAND waits: where a DEMAND that was being sent is back in the queue beside a newer one, it takes the
newer content in its place, with a fresh count of attempts, and the newer entry leaves (log entry 47). -/
def oneDemand (q : List TxEntry) : List TxEntry :=
  match q.filter isWaitingDemand with
  | older :: newer :: _ =>
      (q.erase newer).map fun e => if e = older then { older with notice := newer.notice, attempts := 0 } else e
  | _ => q

/-- R161: the entry being sent, if one is. -/
def sendingEntry (s : State) : Option TxEntry := s.floor.queue.find? (·.sending)

/-- R153, R154: the recessive bits of a precedence field, counted from 0 at the first sent. -/
def recessiveBits (own : Nat) : List Nat := (List.range 9).filter fun i => own.testBit (8 - i)

/-- R158: the first bit of its precedence field at which a sender is recessive while the line, showing the precedence `won`,
is dominant: there the sender has lost the line. -/
def lostBit (own won : Nat) : Option Nat := (recessiveBits own).find? fun i => !won.testBit (8 - i)

/-- R158: the bit at which this station has lost the line to the precedence `won`, if it was sending. -/
def lostTo (won : Nat) (s : State) : Option Nat :=
  (sendingEntry s).bind fun e => lostBit (precedenceOf e.notice.kind s.own) won

/-- R156, R158: the bit at which this station has lost the line to a notice that was then lost itself: one of its recessive
precedence bits, the row not saying which (a free value, log entry 55). -/
def lostToUnknown (s : State) : Option Nat :=
  (sendingEntry s).bind fun e =>
    let bits := recessiveBits (precedenceOf e.notice.kind s.own)
    bits[Config.lostAtBit s.freeUses % bits.length]?

/-- R158: this station stops driving at that bit of its precedence field: the start bit and the precedence field through it
are what it has put on the line. -/
def stopDriving (bit : Option Nat) (s : State) : State :=
  { s with floor := { s.floor with lineOut := match bit with
      | some i => s.floor.lineOut.take (1 + (i + 1))
      | none => s.floor.lineOut } }

/-- R158: every notice being sent goes back to the queue in its place, its attempts unchanged. -/
def backToQueue (s : State) : State :=
  { s with floor := { s.floor with
      queue := oneDemand (s.floor.queue.map fun e => { e with sending := false }) } }

/-- One free value more has been used, where `used` says so (log entry 35). -/
def countUse (used : Bool) (s : State) : State := { s with freeUses := s.freeUses + bitIf used 1 }

/-- R158: the line is lost at a bit: this station stops driving there, and its notice waits in its place. -/
def loseLine (bit : Option Nat) (s : State) : State := backToQueue (stopDriving bit s)

/-- R158: a notice heard while this station was sending one of lower precedence has won the line (log entry 15). -/
def loseContention (kind station : Nat) (s : State) : State :=
  if s.floor.queue.any fun e => e.sending && precedenceOf kind station < precedenceOf e.notice.kind s.own then
    loseLine (lostTo (precedenceOf kind station) s) s
  else s

/-- R167: a check error counted. -/
def countCheckError (s : State) : State :=
  { s with floor := { s.floor with checkErrors := bump16 s.floor.checkErrors } }

/-- R167: a format error counted. -/
def countFormatError (s : State) : State :=
  { s with floor := { s.floor with formatErrors := bump16 s.floor.formatErrors } }

/-- R167: a line fault counted. -/
def countLineFault (s : State) : State :=
  { s with floor := { s.floor with lineFaults := bump16 s.floor.lineFaults } }

/-- R156, R167: the receiver drops out of step and the notice is counted lost; a receiver out of step loses none. -/
def loseStep (s : State) : State :=
  if s.floor.inStep then
    { s with floor := { s.floor with inStep := false, lostNotices := bump16 s.floor.lostNotices } }
  else s

/-- The slots the part drives in the response window it has heard (R23, R157). -/
def setDrive (d : Option WindowDrive) (s : State) : State := { s with floor := { s.floor with drive := d } }

/-- R90: muting aborts a plan in RUNNING, PAUSED or ENDING; in RUNNING its order is stopped too. R89 and R90 give no order
between the two frames: STOP ORDER is handed before PLAN ABORTED (DESIGN CHOICE, log entry 48). -/
def mutePlan (s : State) : State :=
  let record := stopRecord s .duplicateStation
  match s.active.state with
  | .running =>
      match s.active.order with
      | some o => abortPlan record (stopOrder o s)
      | none => abortPlan record s
  | .paused => abortPlan record s
  | .ending => abortPlan record s
  | .empty => s
  | .done => s
  | .aborted => s

/-- R163, R166: the controller muted: nothing is sent, the queue is empty, the listen-in timer stops. A notice that was being
sent lost the line to the one that mutes, and has stopped at that bit (`loseContention`). -/
def muteFloor (s : State) : State :=
  { s with floor := { s.floor with attach := .muted, queue := [], window := none, listenIn := none } }

/-- R112: the refresh timer stops. -/
def stopRefresh (s : State) : State := { s with water := { s.water with refresh := none } }

/-- R166: the eight steps of muting. -/
def muteStation (s : State) : State :=
  trap (.lineFault .duplicateStation 0) 0 none (muteSump (stopRefresh (mutePlan (muteClaims (muteFloor s)))))

/-- The peer table entry of a station number. -/
def peerOf (s : State) (k : Nat) : Peer := s.peers.getD k Peer.absent

/-- R164: the peer table with a station's entry set; the entry of this station's own number is unused. -/
def setPeer (k : Nat) (p : Peer) (s : State) : State :=
  if s.station.number = some k then s else { s with peers := s.peers.set k p }

/-- R164: an entry after a valid notice, which sets the last demand when it is a DEMAND (R114). -/
def Peer.afterNotice (demand : Option Nat) (p : Peer) : Peer :=
  { p with presence := .present, heard := some 0, demand := demand.getD p.demand }

/-- R114, R164: a valid notice from a peer: PRESENT, its heard timer restarted; the allotment worked afresh on a change of
presence or a DEMAND; the sweep started when the peer was ABSENT (R16). -/
def peerHeard (k : Nat) (demand : Option Nat) (s : State) : State :=
  let old := peerOf s k
  let s := setPeer k (old.afterNotice demand) s
  let s := if old.presence ≠ .present ∨ demand.isSome then recomputeWater s else s
  if old.presence = .absent then startSweep s else s

/-- R156, R158, R163: a valid notice begins to be taken: contention lost to it, the receiver in step at its end. -/
def takeNotice (kind k : Nat) (s : State) : State :=
  let s := setDrive none (loseContention kind k s)
  { s with floor := { s.floor with inStep := true } }

/-- R166: the detector is armed in LISTENING and ACTIVE. -/
def detectorArmed (s : State) : Bool := s.floor.attach == .listening || s.floor.attach == .active

/-- R155, R163, R164, R166: a valid notice heard from station `k`: nothing while the receiver is off. One that bears this
station's own number mutes it, and once MUTED goes to its owner alone, for its peer entry is unused (log entry 16). Any
other goes to the peer table, then to its owner. -/
def hearNotice (kind k : Nat) (demand : Option Nat) (owner : State → State) (s : State) : State :=
  if receiverOn s = false ∨ 30 < k then s
  else if s.station.number = some k then
    if detectorArmed s then launchWrite (muteStation (takeNotice kind k s))
    else launchWrite (owner (takeNotice kind k s))
  else launchWrite (owner (peerHeard k demand (takeNotice kind k s)))

/-- R159: a notice dropped after its third attempt is counted. -/
def countRetryDrop (s : State) : State :=
  { s with floor := { s.floor with retryDrops := bump16 s.floor.retryDrops } }

/-- R161: the entry being sent leaves the queue. -/
def dequeueSending (s : State) : State :=
  { s with floor := { s.floor with queue := s.floor.queue.filter (!·.sending) } }

/-- R28, R29, R30: the owner is told that a notice was dropped: a POLL counts as spoiled, a CLAIM settles unless its entry
has yielded. -/
def tellDropped (e : TxEntry) (s : State) : State :=
  match e.notice, e.owner with
  | .poll _, some h => pollSpoiled h s
  | _, _ => ownerDropped e s

/-- R154: the response window, where it has one, and the end marker of a notice of this station's go on the line. -/
def sendTail (n : Notice) (ownSlot : Bool) (s : State) : State :=
  { s with floor := { s.floor with lineOut := s.floor.lineOut ++ n.tailBits s.own ownSlot } }

/-- R24: whether this station drives its own slot in the window of a notice it sends, judged at the window's beginning. -/
def ownSlotOf (n : Notice) (s : State) : Bool :=
  match n with
  | .poll r => drivesSlot s r
  | _ => false

/-- R24, R29, R30, R157: the owner is told that a notice was sent: a POLL's window is under way, the own slot judged at its
beginning; a CLAIM settles, or is followed by RELEASE when its entry has yielded. -/
def tellSent (e : TxEntry) (s : State) : State :=
  match e.notice, e.owner with
  | .poll r, some h => { s with floor := { s.floor with window := some ⟨h, drivesSlot s r⟩ } }
  | .claim r _, some h => if e.yielded then handNotice (.release r) none s else claimSettles h s
  | _, _ => s

end Sys2Proof.Machine
end

