-- ==== Sys2Proof/Machine/FloorHeard.lean ====
section
/-! DEFINITION. What the part hears on the floor line: the seven kinds of valid notice (R11 to R13, R23, R33, R34, R114,
R164, R165), and the damaged ones (R155 to R157, R160). -/

namespace Sys2Proof.Machine

/-- R23, R24: the window of a POLL taken in step while ACTIVE: the own slot as the table stands when it begins. -/
def answerPoll (inStep : Bool) (resource : Nat) (s : State) : State :=
  if inStep = true ∧ s.floor.attach = .active then setDrive (some ⟨resource, drivesSlot s resource, false⟩) s else s

/-- POLL_RECEIVED (R23, R24, R34). A receiver that was out of step drives nothing in the window. -/
def execPollReceived (station resource : Nat) (s : State) : Host.Outcome State Fault Refusal :=
  .next (hearNotice 1 station none (answerPoll s.floor.inStep resource) s)

/-- R164: a peer's press-busy flag. -/
def setBusy (k : Nat) (busy : Bool) (s : State) : State := setPeer k { peerOf s k with busy := busy } s

/-- R33: the claim-conflict count rises by one. -/
def countConflict (s : State) : State :=
  { s with claims := { s.claims with conflicts := bump16 s.claims.conflicts } }

/-- R30, R33: a CLAIM heard while this station's table holds the resource. -/
def contestClaim (k : Nat) (e : ClaimEntry) (s : State) : State :=
  match e.stage with
  | .polling => s
  | .tentative => if k < s.own then yieldClaim e.handle k s else s
  | .held => countConflict s

/-- R33: a CLAIM as its owner takes it. -/
def onClaim (k resource : Nat) (s : State) : State :=
  if isSlabId resource then
    match claimOn s resource with
    | none => setHolder resource (some k) s
    | some e => contestClaim k e s
  else if isPressId resource then
    match claimOn s resource with
    | none => setBusy k true s
    | some e => contestClaim k e (setBusy k true s)
  else s

/-- CLAIM_RECEIVED (R33). The job number travels for the use of others on the line (R25). -/
def execClaimReceived (station resource _job : Nat) (s : State) : Host.Outcome State Fault Refusal :=
  .next (hearNotice 2 station none (onClaim station resource) s)

/-- R34: a RELEASE as its owner takes it. -/
def onRelease (k resource : Nat) (s : State) : State :=
  if isSlabId resource then clearHolder resource k s
  else if isPressId resource then setBusy k false s
  else s

/-- RELEASE_RECEIVED (R34). -/
def execReleaseReceived (station resource : Nat) (s : State) : Host.Outcome State Fault Refusal :=
  .next (hearNotice 3 station none (onRelease station resource) s)

/-- DEMAND_RECEIVED (R114): the peer table sets the last demand and the allotment is worked afresh. -/
def execDemandReceived (station demand : Nat) (s : State) : Host.Outcome State Fault Refusal :=
  .next (hearNotice 4 station (some demand) (fun s => s) s)

/-- R13: the effect of a RETIRE on the record of a slab id. -/
def onRetire (slab : Nat) (s : State) : State :=
  if isSlabId slab = false then countRefused s
  else match findSlab s slab with
    | none => s
    | some r =>
        match r.state with
        | .stock => slabGone slab (stampSlab slab (setSlabState slab .gone s))
        | .cutOpen => slabGone slab (stampSlab slab (setSlabState slab .gone s))
        | .gone => stampSlab slab s
        | .cutting => countRefused s

/-- RETIRE_RECEIVED (R13). The reason makes no difference. -/
def execRetireReceived (station slab _reason : Nat) (s : State) : Host.Outcome State Fault Refusal :=
  .next (hearNotice 5 station none (onRetire slab) s)

/-- R11: a SLAB notice that can find no place is discarded, counted and trapped. -/
def discardNotice (slab : Nat) (s : State) : State :=
  trap (.registerDiscard slab) 0 none
    { s with register := { s.register with discarded := bump16 s.register.discarded } }

/-- R12: a STOCK record's contents replaced: state and holder kept, stamped, its write queued, the plan slots told. -/
def replaceContents (slab : Nat) (c : SlabContents) (s : State) : State :=
  stalePlan slab .changed (storeSlab slab (stampSlab slab (mapSlab slab (fun r => { r with contents := c }) s)))

/-- R11, R12: a SLAB notice as the register takes it. -/
def onSlab (slab : Nat) (c : SlabContents) (s : State) : State :=
  if isSlabId slab = false ∨ contentsInRange 0 c = false then countRefused s
  else match findSlab s slab with
    | none =>
        match makeRoom s with
        | some s => makeSlab slab c s
        | none => discardNotice slab s
    | some r =>
        match r.state with
        | .stock => if r.contents = c then stampSlab slab s else replaceContents slab c s
        | .cutting => countRefused s
        | .cutOpen => countRefused s
        | .gone => countRefused s

/-- SLAB_RECEIVED (R11, R12). -/
def execSlabReceived (station slab : Nat) (contents : SlabContents) (s : State) : Host.Outcome State Fault Refusal :=
  .next (hearNotice 6 station none (onSlab slab contents) s)

/-- R165: a HELLO as the controller takes it: the fingerprint stored, a differing S or press number trapped. -/
def onHello (k : Nat) (f : Fingerprint) (s : State) : State :=
  if s.station.number = some k then s
  else
    let s := setPeer k { peerOf s k with fingerprint := some f } s
    if f.supply ≠ s.settings.cfg.supply ∨ f.press ≠ s.settings.cfg.press then
      trap (.configSkew k f.supply f.rate f.press) 0 none s
    else s

/-- HELLO_RECEIVED (R165). -/
def execHelloReceived (station supply rate press : Nat) (s : State) : Host.Outcome State Fault Refusal :=
  .next (hearNotice 7 station none (onHello station ⟨supply, rate, press⟩) s)

/-! ### Damaged notices -/

/-- R24, R157: the window of a POLL taken with an error, while ACTIVE: the own slot judged on the resource as received,
and the spoil slot. -/
def spoilPoll (kind resource : Nat) (s : State) : State :=
  if kind = 1 ∧ s.floor.attach = .active then setDrive (some ⟨resource, drivesSlot s resource, true⟩) s else s

/-- CHECK_ERROR (R157): counted in step, and handed to no one. A receiver out of step drives no slot (R156). -/
def execCheckError (kind station resource : Nat) (s : State) : Host.Outcome State Fault Refusal :=
  .next (if receiverOn s then
    if s.floor.inStep then spoilPoll kind resource (countCheckError (setDrive none (loseContention kind station s)))
    else setDrive none s
  else s)

/-- FORMAT_ERROR (R155, R156): counted; a POLL of this kind in step is answered as one with a check error. A receiver out
of step stays so. -/
def execFormatError (kind station resource : Nat) (s : State) : Host.Outcome State Fault Refusal :=
  .next (if receiverOn s then
    let t := countFormatError (setDrive none (loseContention kind station s))
    if s.floor.inStep then spoilPoll kind resource t else t
  else s)

/-- LOSS_OF_STEP (R156): the notice is lost; its window is neither read nor driven. A notice this station was sending
has lost the line to it (R158) and waits in the queue; at which bit, the row does not say (log entry 55). -/
def execLossOfStep (s : State) : Host.Outcome State Fault Refusal :=
  .next (if receiverOn s then
    setDrive none (if s.floor.inStep then
      loseStep (countUse (sendingEntry s).isSome (loseLine (lostToUnknown s) s))
    else s)
  else s)

/-- STUCK_LINE (R160): counted, trapped, the receiver out of step; a notice being sent has lost the
line at its first recessive precedence bit (R158). -/
def execStuckLine (s : State) : Host.Outcome State Fault Refusal :=
  .next (if receiverOn s then
    trap (.lineFault .stuckLine 0) 0 none (setDrive none (loseStep (countLineFault (loseLine (lostTo 0 s) s))))
  else s)

/-- RECEIVER_RESYNC (R156): 600 recessive bit times have been read: the receiver is in step, and no window is under way. -/
def execReceiverResync (s : State) : Host.Outcome State Fault Refusal :=
  .next (if receiverOn s then setDrive none { s with floor := { s.floor with inStep := true } } else s)

end Sys2Proof.Machine
end

