-- ==== Sys2Proof/Machine/FloorSent.lean ====
section
/-! DEFINITION. What the part sends on the floor line: attempts, their ends (R156, R159, R161), and the window of its own
POLL (02 R27, R32). -/

namespace Sys2Proof.Machine

/-- R161: the head of the queue begun. -/
def beginSending : List TxEntry → List TxEntry
  | [] => []
  | e :: rest => { e with sending := true } :: rest

/-- R156, R161, R163: whether an attempt may begin: ACTIVE, in step, nothing being sent, no window of its own under way. -/
def mayTransmit (s : State) : Bool :=
  s.floor.attach == .active && s.floor.inStep && (sendingEntry s).isNone && s.floor.window.isNone

/-- TRANSMIT_ATTEMPT (R161): the entry at the head is begun; its bits go on the line (R154, R186). The window of any POLL
heard is over. -/
def execTransmitAttempt (s : State) : Host.Outcome State Fault Refusal :=
  .next (if mayTransmit s then
    match s.floor.queue with
    | [] => s
    | e :: _ => { s with floor := { s.floor with
        queue := beginSending s.floor.queue, lineOut := e.notice.lineBits s.own, drive := none } }
  else s)

/-- R159: the entry being sent goes back to the queue in its place with one attempt more. -/
def requeueSending (s : State) : State :=
  { s with floor := { s.floor with
      queue := oneDemand (s.floor.queue.map fun e =>
        if e.sending then { e with sending := false, attempts := e.attempts + 1 } else e) } }

/-- R154, R159: the bits of a notice's length, body and check fields, where a mismatch abandons the attempt. -/
def checkedBits (n : Notice) : Nat := 7 + 8 * n.body.length + 16

/-- R159: a sender stops driving at the mismatching bit of those fields, the last it has put on the line; at which, the row
does not say (a free value, log entry 55). -/
def stopAtMismatch (n : Notice) (s : State) : State :=
  { s with
    floor := { s.floor with
      lineOut := s.floor.lineOut.take (1 + 9 + (Config.mismatchBit s.freeUses % checkedBits n + 1)) }
    freeUses := s.freeUses + 1 }

/-- R156, R159: the receiver drops out of step, and drives no slot; a sender's own abandoned notice is no lost notice (log entry 29). -/
def fallOut (s : State) : State := { s with floor := { s.floor with inStep := false, drive := none } }

/-- R159: an attempt at the entry being sent has failed: out of step, one attempt more; after the third the notice is
dropped, trapped LINE FAULT RETRIES EXHAUSTED and reported to its owner. -/
def failAttempt (e : TxEntry) (s : State) : State :=
  if e.attempts + 1 < 3 then requeueSending (fallOut s)
  else tellDropped e
    (trap (.lineFault .retriesExhausted e.notice.kind) 0 none (countRetryDrop (dequeueSending (fallOut s))))

/-- ATTEMPT_ABANDONED (R159): the sender stops driving at the mismatching bit, and the attempt has failed. -/
def execAttemptAbandoned (s : State) : Host.Outcome State Fault Refusal :=
  .next (match sendingEntry s with
    | none => s
    | some e => failAttempt e (stopAtMismatch e.notice s))

/-- R154, R159: the entry being sent leaves the queue, its window and end marker following its check field on the line. -/
def endSending (e : TxEntry) (s : State) : State := sendTail e.notice (ownSlotOf e.notice s) (dequeueSending s)

/-- NOTICE_SENT (R159): the check field has gone out without a mismatch: the entry leaves and its owner is told. -/
def execNoticeSent (s : State) : Host.Outcome State Fault Refusal :=
  .next (match sendingEntry s with
    | none => s
    | some e => tellSent e (endSending e s))

/-! ### The window of an own POLL -/

/-- R157: the own POLL whose window is handed over, with the state its end leaves: the window under way, or the POLL being
sent, its window then beginning and ending in this step (log entry 17). -/
def takeWindow (s : State) : Option (OwnWindow × State) :=
  match s.floor.window with
  | some w => some (w, { s with floor := { s.floor with window := none } })
  | none =>
      match sendingEntry s with
      | none => none
      | some e =>
          match e.notice, e.owner with
          | .poll r, some h => some (⟨h, drivesSlot s r⟩, endSending e s)
          | _, _ => none

/-- R24, R157: the 32 slots as the line shows them: the other stations' and the own slot where it was driven. -/
def seenSlots (s : State) (w : OwnWindow) (slots : BitVec 32) : BitVec 32 :=
  if w.ownSlot then slots ||| BitVec.twoPow 32 s.own else slots

/-- R27: the lowest-numbered station slot that is dominant. -/
def lowestSlot (slots : BitVec 32) : Option Nat := (List.range 31).find? fun k => slots.getLsbD k

/-- R27: the window of the first poll of an entry in POLLING. -/
def readFirstWindow (e : ClaimEntry) (slots : BitVec 32) (s : State) : State :=
  if slots.getLsbD 31 then pollSpoiled e.handle s
  else match lowestSlot slots with
    | some k => endClaim e.handle .heldElsewhere (some k) s
    | none =>
        let job := match e.purpose with
          | .slab job => job
          | .press => 0
        handNotice (.claim e.resource job) (some e.handle)
          (mapClaim e.handle (fun e => { e with stage := .tentative, notice := .queued }) s)

/-- R32: a station slot lower than this station's is dominant: the lowest such. -/
def lowerSlot (own : Nat) (slots : BitVec 32) : Option Nat := (lowestSlot slots).filter (· < own)

/-- R32: the entry goes HELD, with result GRANTED. -/
def grantClaim (e : ClaimEntry) (s : State) : State :=
  reportResult e .granted (some s.own) (mapClaim e.handle (fun e => { e with stage := .held }) s)

/-- R32: the window of a confirm poll. -/
def readConfirmWindow (e : ClaimEntry) (slots : BitVec 32) (s : State) : State :=
  match lowerSlot s.own slots with
  | some k => yieldClaim e.handle k s
  | none => if slots.getLsbD 31 then pollSpoiled e.handle s else grantClaim e s

/-- R27, R29, R32: a window handed to the claim table; one of an entry that has left the table is discarded. -/
def readWindow (handle : Nat) (slots : BitVec 32) (s : State) : State :=
  match claimOf s handle with
  | none => s
  | some e =>
      match e.stage with
      | .polling => readFirstWindow e slots s
      | .tentative => readConfirmWindow e slots s
      | .held => s

/-- OWN_POLL_WINDOW (R27, R32). -/
def execOwnPollWindow (slots : BitVec 32) (s : State) : Host.Outcome State Fault Refusal :=
  .next (match takeWindow s with
    | none => s
    | some (w, t) => readWindow w.handle (seenSlots s w slots) t)

end Sys2Proof.Machine
end

