-- ==== Sys2Proof/Machine/StartUp.lean ====
section
/-! DEFINITION. Start-up (R179): the write in flight abandoned, the settings read (R181, R182), the store recovered
(R184, R21, R150, R151), every block at its values for either reset. -/

namespace Sys2Proof.Machine

/-- R184: what recovery has found so far: the places, the writes queued, and the count of the recovery status. -/
structure Recovery (α : Type) where
  places : List (Option α)
  writes : List StorePlace
  count : Nat
  deriving DecidableEq, Repr

/-- R184: a recovery with one more place. -/
def Recovery.add {α : Type} (r : Recovery α) (place : Option α) (writes : List StorePlace) (count : Nat) : Recovery α :=
  ⟨r.places ++ [place], r.writes ++ writes, r.count + count⟩

/-- R21, R184: the next slab place recovered: a bad check leaves it out; an id already restored is left out and a write
queued to clear it; CUTTING comes back CUT OPEN with a write queued. -/
def recoverSlab (r : Recovery SlabRecord) (bs : List Byte) : Recovery SlabRecord :=
  let i := r.places.length
  if !goodCheck bs then r.add none [] 1
  else match slabOfBytes bs with
    | none => r.add none [] 0
    | some record =>
        if r.places.any fun o => o.any (·.id == record.id) then r.add none [.slab i] 1
        else if record.state = .cutting then r.add (some { record with state := .cutOpen }) [.slab i] 0
        else r.add (some record) [] 0

/-- R184: the slab places recovered. -/
def recoverSlabs (stored : List (List Byte)) : Recovery SlabRecord := stored.foldl recoverSlab ⟨[], [], 0⟩

/-- R150, R184: the next good job place recovered: a number already restored is left out and a write queued to clear it.
A bad copy waits. -/
def recoverGoodJob (r : Recovery JobRecord) (bs : List Byte) : Recovery JobRecord :=
  let i := r.places.length
  if !goodCheck bs then r.add none [] 0
  else match jobOfBytes bs with
    | none => r.add none [] 0
    | some record =>
        if r.places.any fun o => o.any (·.number == record.number) then r.add none [.job i] 0
        else r.add (some record) [] 0

/-- R151, R184: the damaged copies judged in place order: DAMAGED with a write queued, or left out. -/
def recoverDamaged : Nat → List (List Byte) → Recovery JobRecord → Recovery JobRecord
  | _, [], r => r
  | i, bs :: rest, r =>
      let number := u16At bs 0
      if goodCheck bs || number == 0 || r.places.any fun o => o.any (·.number == number) then
        recoverDamaged (i + 1) rest r
      else
        recoverDamaged (i + 1) rest
          ⟨r.places.set i (some (damagedJob number)), r.writes ++ [.job i], r.count + 1⟩

/-- R184: the job places recovered, good copies first. -/
def recoverJobs (stored : List (List Byte)) : Recovery JobRecord :=
  recoverDamaged 0 stored (stored.foldl recoverGoodJob ⟨[], [], 0⟩)

/-- R126, R184: the sump account as stored, 0 where its check is bad. -/
def recoverVolume (bs : List Byte) : Nat := if goodCheck bs then u32At bs 0 else 0

/-- R2, R184: the serial counter as stored, 1 where its check is bad. -/
def recoverSerial (bs : List Byte) : Nat := if goodCheck bs then u16At bs 0 else 1

/-- R182: a write of the configuration block or the calibration region that a reset finds in flight is lost, the old one
standing. -/
def StorePlace.keepsOld : StorePlace → Bool
  | .config => true
  | .calibration => true
  | .slab _ => false
  | .job _ => false
  | .sump => false
  | .serial => false
  | .erase => false

/-- R179, R182, R183: the store once a write in flight is abandoned: its place is as the store left it, the configuration
block and the calibration region as they were. -/
def abandonWrite (s : State) : Store :=
  match s.store.inFlight with
  | none => s.store
  | some w => if w.place.keepsOld then s.store else s.store.leave s.freeUses w

/-- R168: the filler the part shifts out while `n` bytes come in. -/
def filler (n : Nat) : List Byte := List.replicate n 0xFF#8

/-- R168, R179: the phase a reset leaves: a transaction in progress is spent. -/
def phaseAfterReset (p : Phase) : Phase := if p = .idle then .idle else .spent

/-- R168, R176: the host link as a reset leaves it, start-up under way: in a transaction the part shifts out filler. -/
def hostAfterReset (p : Phase) : HostLink :=
  { HostLink.reset with
    startingUp := true, phase := phaseAfterReset p, shiftOut := if p = .idle then [] else filler 1 }

/-- R179: start-up from steps 1 to 3, the host link not yet ready. -/
def startUp (station : Station) (s : State) : State :=
  let store := abandonWrite s
  let slabs := recoverSlabs store.slabs
  let jobs := recoverJobs store.jobs
  let sumpBad := !goodCheck store.sump
  let serialBad := !goodCheck store.serial
  launchWrite
    { pending := s.pending
      station := station
      settings := settingsOf store.config store.calibration
      host := hostAfterReset s.host.phase
      floor := Floor.reset
      peers := Peer.resetTable
      register := { Register.reset with places := slabs.places, serial := recoverSerial store.serial }
      claims := ClaimTable.reset
      staged := .empty
      active := Active.reset
      charge := Charge.reset
      water := Water.reset
      sump := { Sump.reset with volume := recoverVolume store.sump }
      jobs := jobs.places
      store :=
        { slabs := store.slabs, jobs := store.jobs, sump := store.sump, serial := store.serial
          config := store.config, calibration := store.calibration
          queue := slabs.writes ++ jobs.writes ++ (if sumpBad then [.sump] else []) ++
            (if serialBad then [.serial] else [])
          inFlight := none, newConfig := none, newCalibration := none
          leftOut := slabs.count, damaged := jobs.count, sumpDefault := sumpBad, serialDefault := serialBad
          faults := 0 }
      freeUses := s.freeUses + bitIf s.store.inFlight.isSome 1 }

end Sys2Proof.Machine
end

