-- ==== Sys2Proof/Machine/Take.lean ====
section
/-! DEFINITION. Taking a command from the inbound queue (R171) and the shape of an outcome. -/

namespace Sys2Proof.Machine

/-- R171: a command is taken when it stands at the head of the inbound queue and the room test passes: it leaves the
queue and its owner takes it whole. Until then it waits, and nothing changes (log entry 8). -/
def takeCommand (straps : Nat) (c : Instr) (run : State → State) (s : State) : Host.Outcome State Fault Refusal :=
  .next (if canTake straps c s then launchWrite (run (popInbound s)) else s)

/-- R171: the first refusal of a list of checks taken in order, each the refusal it gives and whether it applies. -/
def firstRefusal : List (Bool × Reason) → Option Reason
  | [] => none
  | (true, why) :: _ => some why
  | (false, _) :: rest => firstRefusal rest

/-- R171: a command refused with the first reason that applies, or run. -/
def checked (command : Nat) (checks : List (Bool × Reason)) (run : State → State) (s : State) : State :=
  match firstRefusal checks with
  | some why => refuse command why s
  | none => run s

end Sys2Proof.Machine
end

