-- ==== Sys2Proof/Machine/HostEvents.lean ====
section
/-! DEFINITION. Resets and the host link's own events: PIN RESET, RESTART and the end of start-up (11 R179), transactions,
frames in and frames out (10 R168 to R174). -/

namespace Sys2Proof.Machine

/-- PIN_RESET (R179): start-up with the straps sampled afresh and any set number forgotten. -/
def execPinReset (straps : Nat) (s : State) : Host.Outcome State Fault Refusal := .next (startUp ⟨straps, none⟩ s)

/-- RESTART (R179, R171): start-up as it is taken, with no reply, the set number kept. -/
def execRestart (straps : Nat) (s : State) : Host.Outcome State Fault Refusal :=
  .next (if canTake straps (.restart straps) s then startUp ⟨straps, s.station.setNumber⟩ s else s)

/-- START_UP_END (R179): step 4 ends: the host link is ready, both queues empty. -/
def execStartUpEnd (s : State) : Host.Outcome State Fault Refusal :=
  .next (if s.host.startingUp then
    { s with host := { s.host with startingUp := false, inbound := [], outbound := [] } } else s)

/-- TRANSACTION_START (R168): select goes active; the status byte, sampled now, is shifted out. -/
def execTransactionStart (s : State) : Host.Outcome State Fault Refusal :=
  .next (if s.host.phase = .idle then
    { s with host := { s.host with
      phase := .write, shiftOut := [u8 s.statusByte], emptyRead := false, taken := [] } } else s)

/-- The bytes shifted out at an event of the transaction. -/
def shift (bytes : List Byte) (s : State) : State := { s with host := { s.host with shiftOut := bytes } }

/-- R168: in a transaction in which a reset was taken the part shifts out filler, `n` bytes of it, and takes nothing; in
any other phase the event does not come about (log entry 4). -/
def shiftSpent (n : Nat) (s : State) : State := if s.host.phase = .spent then shift (filler n) s else s

/-- R170: what a frame is placed as: itself, or a malformed entry when its kind is unknown or its length above 60. -/
def inboundEntry (kind : Nat) (body : List Byte) : Inbound :=
  if isCommandKind kind && body.length ≤ 60 then .frame kind body else .malformed kind

/-- R169: a frame received whole: placed when it fitted as its length byte arrived, otherwise discarded with the overflow
flag set. -/
def placeInbound (e : Inbound) (since : Nat) (s : State) : State :=
  if fitsAtLength (inboundSize e) since s.host then
    { s with host := { s.host with inbound := s.host.inbound ++ [e] } }
  else { s with host := { s.host with overflow := true } }

/-- The next frame's length byte comes after this one's last: no command has been taken since. -/
def clearTaken (s : State) : State := { s with host := { s.host with taken := [] } }

/-- INBOUND_FRAME (R169, R170): a frame's last byte has arrived. One whose last byte comes before start-up ends is
discarded (R179, log entry 10). -/
def execInboundFrame (kind : Nat) (body : List Byte) (taken : Nat) (s : State) : Host.Outcome State Fault Refusal :=
  .next (if s.host.phase = .write then
    let t := shift (filler (2 + body.length)) s
    clearTaken (if s.host.startingUp then t else placeInbound (inboundEntry kind body) taken t)
  else shiftSpent (2 + body.length) s)

/-- R170: the kind of a queue entry that is answered BAD FRAME: a malformed one, or a frame of the wrong length. -/
def badFrameKind (e : Inbound) : Option Nat :=
  match e with
  | .malformed kind => some kind
  | .frame kind body => if (decodeCommand 0 kind body).isNone then some kind else none

/-- MALFORMED_FRAME (R170): the entry at the head is taken and answered REFUSED with BAD FRAME. -/
def execMalformedFrame (s : State) : Host.Outcome State Fault Refusal :=
  .next (match s.host.inbound.head?.bind badFrameKind with
    | some kind => if commandRoom s then refuse kind .badFrame (popInbound s) else s
    | none => s)

/-- R169, R170: the bytes a frame of a kind and length byte takes in the inbound queue. -/
def arrivingSize (kind length : Nat) : Nat := if isCommandKind kind && length ≤ 60 then 2 + length else 2

/-- R168, R169: how many bytes of a command frame cut short had been shifted in; none where none was cut short, a frame
whose last byte has arrived being none (log entry 4). -/
def bytesArrived : CutFrame → Nat
  | .none => 0
  | .beforeLength => 1
  | .afterLength _ length _ body => if body < length then 2 + body else 0
  | .reading _ => 0

/-- R168: the filler shifted out while those bytes came in. -/
def shiftCut (cut : CutFrame) (s : State) : State :=
  if bytesArrived cut = 0 then s else shift (filler (bytesArrived cut)) s

/-- R169: what a command frame cut short by select going inactive does: nothing for none; the truncated count rises, and the
overflow flag is set where the frame did not fit as its length byte arrived. -/
def cutShort (cut : CutFrame) (s : State) : State :=
  match cut with
  | .none => s
  | .beforeLength => { s with host := { s.host with truncated := bump16 s.host.truncated } }
  | .afterLength kind length taken body =>
      if body < length then
        { s with host := { s.host with
          truncated := bump16 s.host.truncated
          overflow := s.host.overflow || !fitsAtLength (arrivingSize kind length) taken s.host } }
      else s
  | .reading _ => s

/-- R174: the head marked as read, its first byte having been shifted out. -/
def beginHead : List Outbound → List Outbound
  | [] => []
  | f :: rest => { f with begun := true } :: rest

/-- R174: the first `n` bytes of the frame at the head, and not its last, have been shifted out in this read phase: it counts
as read and stays at the head. -/
def shiftHead (n : Nat) (s : State) : State :=
  match s.host.outbound.head? with
  | none => s
  | some f =>
      if 0 < n ∧ n < f.report.size then
        { s with host := { s.host with outbound := beginHead s.host.outbound, shiftOut := f.report.frame.take n } }
      else s

/-- R174: the frame at the head cut short in the read phase: the bytes of it that have been shifted out. -/
def cutReading (cut : CutFrame) (s : State) : State :=
  match cut with
  | .none => s
  | .beforeLength => s
  | .afterLength _ _ _ _ => s
  | .reading n => shiftHead n s

/-- SELECT_INACTIVE (R168, R169, R174): the transaction ends. A command frame cut short has had filler shifted out for the
bytes of it that came in; a report frame cut short in the read phase stays at the head. -/
def execSelectInactive (cut : CutFrame) (s : State) : Host.Outcome State Fault Refusal :=
  .next (
    let t := match s.host.phase with
      | .idle => s
      | .write => shiftCut cut (if s.host.startingUp then s else cutShort cut s)
      | .read => cutReading cut s
      | .spent => shiftCut cut s
    { t with host := { t.host with phase := .idle } })

/-- R174: the empty frame. -/
def emptyFrame : List Byte := [0, 0]

/-- READ_MARKER (R168, R174): the write phase ends, filler being shifted out as the marker comes in, and the read phase
begins; an empty queue shifts out the empty frame. R174 does not say whether that goes out with the marker or only as the
controller clocks on: the model shifts it out with the marker (DESIGN CHOICE, log entry 54). -/
def execReadMarker (s : State) : Host.Outcome State Fault Refusal :=
  .next (if s.host.phase = .write then
    { s with host := { s.host with
      phase := .read, shiftOut := filler 1 ++ (if s.host.outbound.isEmpty then emptyFrame else [])
      emptyRead := s.host.outbound.isEmpty } }
  else shiftSpent 1 s)

/-- FRAME_READ_BEGUN (R174): the first byte of the frame at the head has been shifted out. -/
def execFrameReadBegun (s : State) : Host.Outcome State Fault Refusal :=
  .next (if s.host.phase = .read then shiftHead 1 s else shiftSpent 1 s)

/-- R174: the part clocked in the read phase: the frame at the head is shifted out and leaves the queue; an empty queue
shifts out one empty frame and then filler. -/
def shiftNext (s : State) : State :=
  match s.host.outbound with
  | [] => { s with host := { s.host with
      shiftOut := if s.host.emptyRead then filler 1 else emptyFrame, emptyRead := true } }
  | f :: rest => { s with host := { s.host with outbound := rest, shiftOut := f.report.frame, emptyRead := false } }

/-- OUTBOUND_FRAME_READ (R174): the last byte of the frame at the head has been shifted out: it leaves the queue. The bytes
shown are the whole frame's, the first that FRAME_READ_BEGUN showed among them. -/
def execOutboundFrameRead (s : State) : Host.Outcome State Fault Refusal :=
  .next (if s.host.phase = .read then shiftNext s else shiftSpent 1 s)

end Sys2Proof.Machine
end

