-- ==== Sys2Proof/Machine/JobCommands.lean ====
section
/-! DEFINITION. Commands on the cost table: OPEN JOB, CLOSE JOB, FREE JOB, READ JOB (08 R138 to R140). -/

namespace Sys2Proof.Machine

/-- R138: a record newly opened. -/
def newJob (job : Nat) (estimate : Option Nat) : JobRecord :=
  { number := job, closed := false, estimate := estimate, inUse := 0, segments := 0, inStone := 0, time := 0
    recycled := 0, fresh := 0, wear := 0, solids := 0, area := 0, machine := 0, water := 0, wearCents := 0
    disposal := 0, material := 0, total := 0, overEstimate := false, saturated := false, damaged := false }

/-- R138: the record put in a place, its write queued. -/
def openJobAt (i job : Nat) (estimate : Option Nat) (s : State) : State :=
  queueWrite (.job i) { s with jobs := s.jobs.set i (some (newJob job estimate)) }

/-- R138: OPEN JOB as its owner takes it. -/
def runOpenJob (job : Nat) (estimate : Option Nat) (s : State) : State :=
  if isJobNumber job = false then refuse 0x13 .range s
  else if (findJob s job).isSome then refuse 0x13 .state s
  else match s.jobs.findIdx? (·.isNone) with
    | none => refuse 0x13 .jobTableFull s
    | some i => openJobAt i job estimate (accept 0x13 s)

/-- OPEN_JOB (R138). -/
def execOpenJob (job : Nat) (estimate : Option Nat) (s : State) : Host.Outcome State Fault Refusal :=
  takeCommand 0 (.openJob job estimate) (runOpenJob job estimate) s

/-- R140: CLOSE JOB as its owner takes it. -/
def runCloseJob (job : Nat) (s : State) : State :=
  if isJobNumber job = false then refuse 0x14 .range s
  else match findJob s job with
    | none => refuse 0x14 .jobNotOpen s
    | some j =>
        if j.closed then refuse 0x14 .jobNotOpen s
        else if 0 < j.inUse then refuse 0x14 .jobInUse s
        else storeJob job (mapJob job (fun j => { j with closed := true }) (accept 0x14 s))

/-- CLOSE_JOB (R140). -/
def execCloseJob (job : Nat) (s : State) : Host.Outcome State Fault Refusal :=
  takeCommand 0 (.closeJob job) (runCloseJob job) s

/-- R140: a record leaves the table, the removal of its stored copy queued. -/
def removeJob (job : Nat) (s : State) : State :=
  let s := storeJob job s
  { s with jobs := s.jobs.map fun o => o.filter (·.number != job) }

/-- R140: FREE JOB as its owner takes it. -/
def runFreeJob (job : Nat) (s : State) : State :=
  if job = 0 then refuse 0x15 .range s
  else match findJob s job with
    | none => refuse 0x15 .jobNotOpen s
    | some j => if j.closed then removeJob job (accept 0x15 s) else refuse 0x15 .state s

/-- FREE_JOB (R140). -/
def execFreeJob (job : Nat) (s : State) : Host.Outcome State Fault Refusal :=
  takeCommand 0 (.freeJob job) (runFreeJob job) s

/-- R139: READ JOB as its owner takes it. -/
def runReadJob (job : Nat) (s : State) : State :=
  if job = 0 then refuse 0x16 .range s
  else match findJob s job with
    | none => refuse 0x16 .jobNotOpen s
    | some j => reports [.jobHead j, .jobTail j] (accept 0x16 s)

/-- READ_JOB (R139). -/
def execReadJob (job : Nat) (s : State) : Host.Outcome State Fault Refusal :=
  takeCommand 0 (.readJob job) (runReadJob job) s

end Sys2Proof.Machine
end

