-- ==== Sys2Proof/Machine/LineEvents.lean ====
section
/-! DEFINITION. Events on the plain lines and the store port: meter pulses (06 R121, R122), press-done (07 R131), a store
write completed or not (11 R183, R185). -/

namespace Sys2Proof.Machine

/-- R122: the segment counts are the accrual target while the slot is RUNNING, PAUSED or ENDING, or ABORTED with an order
still in flight; the idle tallies otherwise. -/
def accruesToSegment (s : State) : Bool :=
  match s.active.state with
  | .running => true
  | .paused => true
  | .ending => true
  | .aborted => s.active.order.isSome
  | .empty => false
  | .done => false

/-- R121, R122: one pulse counted at its target. -/
def countPulse (meter : Meter) (toSegment : Bool) (w : Water) : Water :=
  match meter, toSegment with
  | .recycled, true => { w with segRecycled := add32 w.segRecycled 1 }
  | .fresh, true => { w with segFresh := add32 w.segFresh 1 }
  | .recycled, false => { w with idleRecycled := add32 w.idleRecycled 1 }
  | .fresh, false => { w with idleFresh := add32 w.idleFresh 1 }

/-- METER_PULSE (R121, R122). -/
def execMeterPulse (meter : Meter) (s : State) : Host.Outcome State Fault Refusal :=
  .next { s with water := countPulse meter (accruesToSegment s) s.water }

/-- R131: the time from the grant to now, in tenths. -/
def purgeElapsed (s : State) : Nat := tenthsOf (s.settings.cfg.purgeTime * 1000 - s.sump.purge.getD 0)

/-- R131: the seven steps of a purge's end. -/
def endPurge (s : State) : State :=
  let elapsed := purgeElapsed s
  let full := s.settings.cfg.hardLimit ≤ s.sump.volume
  let s := queueWrite .sump { s with sump := { s.sump with
    purge := none, volume := s.sump.volume - s.sump.snapshot } }
  let s := releaseClaim (ownPress s) s
  let s := report (.purgeReport s.settings.cfg.press s.sump.snapshot s.sump.volume elapsed) s
  let s := if full ∧ s.sump.volume < s.settings.cfg.hardLimit then sumpCleared s else s
  testThreshold (pressIdle s)

/-- PRESS_DONE (R131): a rising edge of press-done; it has no effect outside PURGING. -/
def execPressDone (s : State) : Host.Outcome State Fault Refusal :=
  .next (if s.sump.state = .purging then launchWrite (endPurge s) else s)

/-- R183, R185: the store with the write in flight completed: its bytes, or the erase of every slab and job place. -/
def Store.complete (st : Store) (w : StoreWrite) : Store :=
  match w.place with
  | .erase => st.eraseFirst 88
  | p => st.put p w.bytes

/-- STORE_WRITE_DONE (R183): the write in flight is complete and the next goes out. -/
def execStoreWriteDone (s : State) : Host.Outcome State Fault Refusal :=
  .next (match s.store.inFlight with
    | none => s
    | some w => launchWrite { s with store := { s.store.complete w with inFlight := none } })

/-- STORE_WRITE_TIMEOUT (R183): a write the store does not complete is counted; the copy is as the store left it (log
entries 12 and 13), and the next goes out. -/
def execStoreWriteTimeout (s : State) : Host.Outcome State Fault Refusal :=
  .next (match s.store.inFlight with
    | none => s
    | some w => launchWrite { s with
        store := { s.store.leave s.freeUses w with inFlight := none, faults := bump16 s.store.faults }
        freeUses := s.freeUses + 1 })

end Sys2Proof.Machine
end

