-- ==== Sys2Proof/Machine/Validation.lean ====
section
/-! DEFINITION. Validation of a staged plan: the ten checks (R50 to R58), the rejection record (R59), what a valid plan
holds (R60), and the PLAN RESULT frames (R61). -/

namespace Sys2Proof.Machine

/-- The first element, with its index from `i` on, for which a check gives a failure. -/
def firstFailure {α β : Type} (check : Nat → α → Option β) : Nat → List α → Option β
  | _, [] => none
  | i, a :: rest => match check i a with
    | some b => some b
    | none => firstFailure check (i + 1) rest

/-- R59: a rejection with no partner, coordinate or defect index. -/
def plainRejection (check : Nat) (item : ItemKind) (index : Nat) : Rejection := ⟨check, item, index, none, none, none⟩

/-- R51: check 1. -/
def checkSlab (s : State) (p : Plan) : Option Rejection :=
  match findSlab s p.slab with
  | none => some (plainRejection 1 .slab 0)
  | some r =>
      if r.state = .gone ∨ r.state = .cutting then some (plainRejection 1 .slab 0) else none

/-- R51: check 2. -/
def checkLists (p : Plan) : Option Rejection :=
  if p.pieces.isEmpty then some (plainRejection 2 .piece 0)
  else if p.segments.isEmpty then some (plainRejection 2 .segment 0)
  else none

/-- R52: an item against the usable region. -/
def checkRegion (cfg : ConfigFields) (c : SlabContents) (check : Nat) (kind : ItemKind) (i : Nat) (r : Rect) :
    Option Rejection :=
  (regionFailure cfg.margin cfg.guard c r).map fun f => ⟨check, kind, i, none, some f.coordinate, f.defect⟩

/-- R52: check 3. -/
def checkPieces (cfg : ConfigFields) (c : SlabContents) (p : Plan) : Option Rejection :=
  firstFailure (checkRegion cfg c 3 .piece) 0 (p.pieces.map (·.rect))

/-- R52: check 4. -/
def checkRemnants (cfg : ConfigFields) (c : SlabContents) (p : Plan) : Option Rejection :=
  firstFailure (checkRegion cfg c 4 .remnant) 0 p.remnants

/-- An item of check 5 or 7: its kind, index and rectangle. -/
structure Item where
  kind : ItemKind
  index : Nat
  rect : Rect
  deriving DecidableEq, Repr

/-- A plan's pieces as items. -/
def pieceItems (p : Plan) : List Item := p.pieces.mapIdx fun i e => ⟨.piece, i, e.rect⟩

/-- A plan's remnants as items. -/
def remnantItems (p : Plan) : List Item := p.remnants.mapIdx fun i r => ⟨.remnant, i, r⟩

/-- R53: the pairs of a list, by the first member's place and then the second's. -/
def pairsOf : List Item → List (Item × Item)
  | [] => []
  | a :: rest => rest.map (fun b => (a, b)) ++ pairsOf rest

/-- R53: every pair of items, in the order they are taken: pieces, piece and remnant, remnants. -/
def kerfPairs (p : Plan) : List (Item × Item) :=
  pairsOf (pieceItems p)
    ++ (pieceItems p).flatMap (fun a => (remnantItems p).map fun b => (a, b))
    ++ pairsOf (remnantItems p)

/-- R53: a pair closer than the kerf, the later one the item and the other its partner. -/
def pairFailure (kerf : Nat) (pair : Item × Item) : Option Rejection :=
  let partner := rectBox pair.1.rect
  let item := rectBox pair.2.rect
  if clearOf kerf partner item then none
  else some ⟨5, pair.2.kind, pair.2.index, some (pair.1.kind, pair.1.index),
    some (item.sharedCorner (partner.grow kerf)), none⟩

/-- R53: check 5. -/
def checkKerf (cfg : ConfigFields) (p : Plan) : Option Rejection := (kerfPairs p).findSome? (pairFailure cfg.kerf)

/-- R54: check 6. -/
def checkSegments (c : SlabContents) (p : Plan) : Option Rejection :=
  firstFailure (fun i g => (segmentFailure c g).map fun at' => ⟨6, .segment, i, none, some at', none⟩) 0 p.segments

/-- R55: a point in half millimetres, a half-millimetre coordinate rounded down. -/
def halfPoint (q : Point) : Point := ⟨q.x / 2, q.y / 2⟩

/-- R55: a segment's kerf band against an item. -/
def bandFailure (kerf : Nat) (i : Nat) (g : Segment) (item : Item) : Option Rejection :=
  let band := kerfBand kerf g
  let box := rectHalfBox item.rect
  if band.meets box then
    some ⟨7, .segment, i, some (item.kind, item.index), some (halfPoint (band.sharedCorner box)), none⟩
  else none

/-- R55: check 7. -/
def checkBands (cfg : ConfigFields) (p : Plan) : Option Rejection :=
  firstFailure (fun i g => (pieceItems p ++ remnantItems p).findSome? (bandFailure cfg.kerf i g)) 0 p.segments

/-- R56: check 8. -/
def checkIndices (p : Plan) : Option Rejection :=
  firstFailure (fun i g => if p.pieces.length ≤ g.piece then some (plainRejection 8 .segment i) else none) 0 p.segments

/-- R58: check 10. -/
def checkJobs (s : State) (p : Plan) : Option Rejection :=
  firstFailure (fun i e => if jobOpen s e.job then none else some (plainRejection 10 .job i)) 0 p.pieces

/-- R50: checks 1 to 8, which change nothing: the first failure. -/
def judgePlan (s : State) (p : Plan) : Option Rejection :=
  let cfg := s.settings.cfg
  let c := contentsOf s p.slab
  [checkSlab s p, checkLists p, checkPieces cfg c p, checkRemnants cfg c p, checkKerf cfg p, checkSegments c p,
    checkBands cfg p, checkIndices p].findSome? fun r => r

/-- R61: the PLAN RESULT frames of a VALID outcome. -/
def validFrames (p : Plan) (e : Estimate) : List Report := .planValid p.number e :: e.lines.map (.planLine p.number)

/-- R50: the slot goes REJECTED. -/
def rejectPlan (p : Plan) (why : Rejection) (s : State) : State :=
  report (.planRejected p.number why) { s with staged := .rejected p why }

/-- R60, R61: the slot goes VALID with its reservations, in-use counts and estimate. -/
def acceptPlan (p : Plan) (s : State) : State :=
  let e := estimateOf s.settings.cfg (contentsOf s p.slab) p
  let p := { p with estimate := some e, reservations := p.remnants.length }
  reports (validFrames p e) (holdJobs (distinctJobs p.pieces) { s with staged := .valid p })

/-- R50, R57, R58: validation, taken whole. Records evicted at check 9 stay evicted when check 10 fails. -/
def validatePlan (p : Plan) (s : State) : State :=
  match judgePlan s p with
  | some why => rejectPlan p why s
  | none =>
      match reserve p.remnants.length s with
      | none => rejectPlan p (plainRejection 9 .remnant (placesOnOffer s)) s
      | some s =>
          match checkJobs s p with
          | some why => rejectPlan p why (dropReservations p.remnants.length s)
          | none => acceptPlan p s

end Sys2Proof.Machine
end

