-- ==== Sys2Proof/Machine/PlanCommands.lean ====
section
/-! DEFINITION. Commands on the staged slot: loading, validation, dropping and starting a plan (03 R45 to R49, R63 to
R65). -/

namespace Sys2Proof.Machine

/-- R45: PLAN HEAD as its owner takes it. -/
def runPlanHead (plan slab : Nat) (s : State) : State :=
  if plan = 0 ∨ isSlabId slab = false then refuse 0x06 .range s
  else { discardStaged (accept 0x06 s) with staged := .loading { Plan.blank with number := plan, slab := slab } }

/-- PLAN_HEAD (R45). -/
def execPlanHead (plan slab : Nat) (s : State) : Host.Outcome State Fault Refusal :=
  takeCommand 0 (.planHead plan slab) (runPlanHead plan slab) s

/-- The plan of a LOADING staged slot. -/
def Staged.loading? : Staged → Option Plan
  | .loading p => some p
  | .empty => none
  | .valid _ => none
  | .rejected _ _ => none
  | .stale _ _ => none

/-- R46 to R48: a loading frame: STATE unless LOADING, RANGE when it is unfit, otherwise the plan is changed. -/
def loadFrame (command : Nat) (fits : Plan → Bool) (change : Plan → Plan) (s : State) : State :=
  match s.staged.loading? with
  | none => refuse command .state s
  | some p => if fits p then { accept command s with staged := .loading (change p) } else refuse command .range s

/-- R46: PLAN PIECES as its owner takes it. -/
def runPlanPieces (pieces : List PieceEntry) (s : State) : State :=
  loadFrame 0x07
    (fun p => 1 ≤ pieces.length && pieces.length ≤ 4 && pieces.all pieceInRange
      && p.pieces.length + pieces.length ≤ 16)
    (fun p => { p with pieces := p.pieces ++ pieces }) s

/-- PLAN_PIECES (R46). -/
def execPlanPieces (pieces : List PieceEntry) (s : State) : Host.Outcome State Fault Refusal :=
  takeCommand 0 (.planPieces pieces) (runPlanPieces pieces) s

/-- R47: PLAN REMNANTS as its owner takes it. -/
def runPlanRemnants (remnants : List Rect) (s : State) : State :=
  loadFrame 0x08 (fun _ => remnants.length ≤ 4 && remnants.all remnantInRange)
    (fun p => { p with remnants := remnants }) s

/-- PLAN_REMNANTS (R47). -/
def execPlanRemnants (remnants : List Rect) (s : State) : Host.Outcome State Fault Refusal :=
  takeCommand 0 (.planRemnants remnants) (runPlanRemnants remnants) s

/-- R48: PLAN SEGMENTS as its owner takes it. -/
def runPlanSegments (segments : List SegmentEntry) (s : State) : State :=
  loadFrame 0x09
    (fun p => 1 ≤ segments.length && segments.length ≤ 6 && segments.all segmentInRange
      && p.segments.length + segments.length ≤ 40)
    (fun p => { p with segments := p.segments ++ segments.map entrySegment }) s

/-- PLAN_SEGMENTS (R48). -/
def execPlanSegments (segments : List SegmentEntry) (s : State) : Host.Outcome State Fault Refusal :=
  takeCommand 0 (.planSegments segments) (runPlanSegments segments) s

/-- R49: PLAN END as its owner takes it. -/
def runPlanEnd (s : State) : State :=
  match s.staged with
  | .empty => refuse 0x0A .noPlan s
  | .loading p => validatePlan p (accept 0x0A s)
  | .valid p => reports (p.estimate.elim [] (validFrames p)) (accept 0x0A s)
  | .rejected p why => report (.planRejected p.number why) (accept 0x0A s)
  | .stale p cause => report (.planStale p.number p.slab cause) (accept 0x0A s)

/-- PLAN_END (R49). -/
def execPlanEnd (s : State) : Host.Outcome State Fault Refusal := takeCommand 0 .planEnd runPlanEnd s

/-- R63: DROP PLAN as its owner takes it. -/
def runDropPlan (s : State) : State :=
  if s.staged = .empty then refuse 0x0B .noPlan s else discardStaged (accept 0x0B s)

/-- DROP_PLAN (R63). -/
def execDropPlan (s : State) : Host.Outcome State Fault Refusal := takeCommand 0 .dropPlan runDropPlan s

/-- R65: a plan moved to the active slot, its running fields set; the tag carries on (R68). -/
def loadActive (p : Plan) (s : State) : State :=
  { s with
    staged := .empty
    active := { Active.reset with
      state := .running, plan := p, tag := s.active.tag
      faultCounts := List.replicate p.segments.length 0, charged := List.replicate p.segments.length false } }

/-- R65: an accepted START PLAN. -/
def startPlan (p : Plan) (s : State) : State :=
  issuePlan (tellWater (setSlabState p.slab .cutting (loadActive p s)))

/-- R64: the slot takes a plan when EMPTY or DONE. -/
def ActiveState.isFree : ActiveState → Bool
  | .empty => true
  | .done => true
  | .running => false
  | .paused => false
  | .ending => false
  | .aborted => false

/-- R64, R65: START PLAN as its owner takes it. -/
def runStartPlan (s : State) : State :=
  if s.floor.attach = .muted then refuse 0x0C .muted s
  else if s.floor.attach ≠ .active then refuse 0x0C .lineInert s
  else if s.active.state.isFree = false then refuse 0x0C .state s
  else match s.staged with
    | .valid p =>
        if (findSlab s p.slab).map (·.state) ≠ some .stock then refuse 0x0C .slabBusy s
        else if isHeld s p.slab = false then refuse 0x0C .heldElsewhere s
        else startPlan p (accept 0x0C s)
    | .empty => refuse 0x0C .state s
    | .loading _ => refuse 0x0C .state s
    | .rejected _ _ => refuse 0x0C .state s
    | .stale _ _ => refuse 0x0C .state s

/-- START_PLAN (R64, R65). -/
def execStartPlan (s : State) : Host.Outcome State Fault Refusal := takeCommand 0 .startPlan runStartPlan s

end Sys2Proof.Machine
end

