-- ==== Sys2Proof/Machine/RegisterCommands.lean ====
section
/-! DEFINITION. Commands on the slab register and the claim table: ENTER SLAB, READ SLAB, LIST SLABS (01 R18 to R20), TAKE
and GIVE (02 R25, R36). -/

namespace Sys2Proof.Machine

/-- R18: an accepted ENTER SLAB, room having been found. -/
def enterSlab (c : SlabContents) (s : State) : State :=
  let id := idToIssue s
  announceSlab id (makeSlab id c (advanceSerial (acceptWith 0x01 (.slabId id) s)))

/-- R18: ENTER SLAB as its owner takes it. -/
def runEnterSlab (c : SlabContents) (s : State) : State :=
  checked 0x01 [(s.station.number.isNone, .state), (!contentsInRange 1 c, .range)]
    (fun s => match makeRoom s with
      | none => refuse 0x01 .registerFull s
      | some s => enterSlab c s) s

/-- ENTER_SLAB (R18). -/
def execEnterSlab (cls thickness width height price : Nat) (defects : List Defect) (s : State) :
    Host.Outcome State Fault Refusal :=
  takeCommand 0 (.enterSlab cls thickness width height price defects)
    (runEnterSlab ⟨cls, thickness, width, height, price, none, defects⟩) s

/-- R19: READ SLAB as its owner takes it. -/
def runReadSlab (slab : Nat) (s : State) : State :=
  if !isSlabId slab then refuse 0x02 .range s
  else match findSlab s slab with
    | none => refuse 0x02 .unknownSlab s
    | some r => reports [.slabRecordHead r, .slabRecordTail r.id r.contents.defects] (accept 0x02 s)

/-- READ_SLAB (R19). -/
def execReadSlab (slab : Nat) (s : State) : Host.Outcome State Fault Refusal :=
  takeCommand 0 (.readSlab slab) (runReadSlab slab) s

/-- R20: an entry put in ascending id order. -/
def insertById (e : Nat × SlabState) : List (Nat × SlabState) → List (Nat × SlabState)
  | [] => [e]
  | x :: rest => if e.1 ≤ x.1 then e :: x :: rest else x :: insertById e rest

/-- R20: the records at or above an id, ascending, each an id and a state. -/
def slabsFrom (s : State) (start : Nat) : List (Nat × SlabState) :=
  (((slabRecords s).filter fun r => start ≤ r.id).map fun r => (r.id, r.state)).foldr insertById []

/-- R20: LIST SLABS as its owner takes it. -/
def runListSlabs (start : Nat) (s : State) : State :=
  if 63487 < start then refuse 0x03 .range s
  else
    let all := slabsFrom s start
    report (.slabList (all.take 12) (12 < all.length)) (accept 0x03 s)

/-- LIST_SLABS (R20). -/
def execListSlabs (start : Nat) (s : State) : Host.Outcome State Fault Refusal :=
  takeCommand 0 (.listSlabs start) (runListSlabs start) s

/-- R25: the checks of TAKE, in order. -/
def takeChecks (slab job : Nat) (s : State) : List (Bool × Reason) :=
  let state := (findSlab s slab).map (·.state)
  [(!isSlabId slab || !isJobNumber job, .range), (state.isNone, .unknownSlab), (state == some .gone, .slabGone),
    (state == some .cutting, .slabBusy), (s.floor.attach == .muted, .muted), (s.floor.attach != .active, .lineInert),
    ((claimOn s slab).isSome, .state), (8 ≤ s.claims.entries.length, .claimTableFull)]

/-- R25: TAKE as its owner takes it. -/
def runTake (slab job : Nat) (s : State) : State :=
  checked 0x04 (takeChecks slab job s) (fun s => makeClaim slab (.slab job) (accept 0x04 s)) s

/-- TAKE (R25). -/
def execTake (slab job : Nat) (s : State) : Host.Outcome State Fault Refusal :=
  takeCommand 0 (.take slab job) (runTake slab job) s

/-- R36: the active slot holds a plan on the slab in RUNNING, PAUSED, ENDING or ABORTED. -/
def activeOn (s : State) (slab : Nat) : Bool := s.active.state.refersToSlab && s.active.plan.slab == slab

/-- R36: GIVE as its owner takes it. -/
def runGive (slab : Nat) (s : State) : State :=
  checked 0x05 [(!isSlabId slab, .range), (activeOn s slab, .slabBusy), (!isHeld s slab, .state)]
    (fun s => releaseClaim slab (accept 0x05 s)) s

/-- GIVE (R36). -/
def execGive (slab : Nat) (s : State) : Host.Outcome State Fault Refusal :=
  takeCommand 0 (.give slab) (runGive slab) s

end Sys2Proof.Machine
end

