-- ==== Sys2Proof/Machine/RunCommands.lean ====
section
/-! DEFINITION. Commands on the active slot: ABORT PLAN, CONTINUE, the three segment reports and CLOSE SLAB (04 R74 to R79,
R84, R86, R93, R94). -/

namespace Sys2Proof.Machine

/-- R86: ABORT PLAN as its owner takes it. -/
def runAbortPlan (s : State) : State :=
  match s.active.state with
  | .empty => refuse 0x0D .noPlan s
  | .done => refuse 0x0D .noPlan s
  | .ending => refuse 0x0D .state s
  | .aborted => refuse 0x0D .state s
  | .paused => abortPlan (stopRecord s .hostAbort) (accept 0x0D s)
  | .running => match s.active.order with
      | some o => stopRunning o .hostAbort (accept 0x0D s)
      | none => refuse 0x0D .state s

/-- ABORT_PLAN (R86). -/
def execAbortPlan (s : State) : Host.Outcome State Fault Refusal := takeCommand 0 .abortPlan runAbortPlan s

/-- R84: CONTINUE as its owner takes it. -/
def runContinue (s : State) : State :=
  if s.active.state = .paused ∧ s.active.pending.hasHost = true then
    setPending s.active.pending.withoutHost (accept 0x0E s)
  else refuse 0x0E .state s

/-- CONTINUE (R84). -/
def execContinue (s : State) : Host.Outcome State Fault Refusal := takeCommand 0 .continuePlan runContinue s

/-! ### Segment reports -/

/-- R82: the reached point of a record opened by a HOLD ORDER, filled as the report arrives. -/
def fillReached (o : Order) (length : Nat) (s : State) : State :=
  if s.active.state = .running ∧ o.held = true then
    { s with active := { s.active with
      fault := s.active.fault.map fun r => { r with reached := reachedPoint s o length } } }
  else s

/-- R74, R80: an accepted report: the length clamped, LENGTH MISMATCH trapped where it is due, the portion charged. `short`
is whether a short length is a mismatch, as it is for a DONE. -/
def chargeReport (o : Order) (short : Bool) (length time : Nat) (s : State) : State :=
  let clamped := min length o.ordered
  let s :=
    if o.ordered < length ∨ (short = true ∧ length + 2 < o.ordered) then
      trap (.lengthMismatch o.tag length o.ordered) s.active.plan.number none s
    else s
  chargePortion o clamped time (fillReached o clamped s)

/-- R68, R74, R173: a report whose tag matches the order in flight ends it: its unread frames are withdrawn, the reply
admitted, the order ended, the portion charged; then the slot is judged. Any other report is refused with STALE TAG. -/
def takeReport (command tag : Nat) (short : Bool) (length time : Nat) (judge : Order → Nat → State → State)
    (s : State) : State :=
  match s.active.order.filter (·.tag == tag) with
  | none => refuse command .staleTag s
  | some o =>
      judge o (min length o.ordered)
        (chargeReport o short length time (endOrder (accept command (withdrawOrders tag s))))

/-- R88: the record a plan in ENDING ends with, as it stood. -/
def endingRecord (s : State) : FaultRecord := s.active.fault.getD (stopRecord s .hostAbort)

/-- R75, R90: the slot after a DONE. -/
def afterDone (_o : Order) (_length : Nat) (s : State) : State :=
  match s.active.state with
  | .running =>
      let s := advanceSegment s
      if allFinished s then completePlan s else goOn s
  | .ending => abortPlan (endingRecord s) (advanceSegment s)
  | .empty => s
  | .paused => s
  | .done => s
  | .aborted => s

/-- R75: SEGMENT DONE as its owner takes it. -/
def runSegmentDone (tag length time : Nat) (s : State) : State := takeReport 0x0F tag true length time afterDone s

/-- SEGMENT_DONE (R75). -/
def execSegmentDone (tag length time : Nat) (s : State) : Host.Outcome State Fault Refusal :=
  takeCommand 0 (.segmentDone tag length time) (runSegmentDone tag length time) s

/-- R76, R77: a cause added for the segment at an index, and the plan PAUSED. -/
def pauseOn (cause : Cause) (segment : Nat) (o : Order) (length : Nat) (s : State) : State :=
  setActiveState .paused (addCause cause segment o.kind (reachedPoint s o length) s)

/-- R76, R90: the slot after a PAUSED. -/
def afterPaused (o : Order) (length : Nat) (s : State) : State :=
  match s.active.state with
  | .running =>
      let s := recordProgress o length s
      if allFinished s then completePlan s
      else if o.held then goOn s
      else pauseOn .machinePause s.active.nextSeg o length s
  | .ending => abortPlan (endingRecord s) (if length < o.ordered then s else advanceSegment s)
  | .empty => s
  | .paused => s
  | .done => s
  | .aborted => s

/-- R76: SEGMENT PAUSED as its owner takes it. -/
def runSegmentPaused (tag length time : Nat) (s : State) : State := takeReport 0x10 tag false length time afterPaused s

/-- SEGMENT_PAUSED (R76). -/
def execSegmentPaused (tag length time : Nat) (s : State) : Host.Outcome State Fault Refusal :=
  takeCommand 0 (.segmentPaused tag length time) (runSegmentPaused tag length time) s

/-- R77: a segment's fault count rises by one, saturating at 3. -/
def countFault (segment : Nat) (s : State) : State :=
  { s with active := { s.active with
      faultCounts := s.active.faultCounts.set segment (min 3 (s.active.faultCounts.getD segment 0 + 1)) } }

/-- R78, R79: a fault report ends the plan ABORTED with a cause; its record is that of the report. -/
def abortOnReport (cause : Cause) (prior : Option Cause) (o : Order) (length : Nat) (s : State) : State :=
  abortPlan (abortRecord s cause .machine prior o.segment o.kind (reachedPoint s o length)) s

/-- R77, R78: a FAULT-class report on a RUNNING plan. -/
def afterStall (cause : Cause) (o : Order) (length : Nat) (s : State) : State :=
  let s := countFault o.segment s
  if o.kind = .resume ∧ length = 0 then abortOnReport .doubleFault (some cause) o length s
  else if s.active.faultCounts.getD o.segment 0 = 3 then abortOnReport .repeatedFault (some cause) o length s
  else
    let s := recordProgress o length s
    if allFinished s then completePlan s else pauseOn cause o.segment o length s

/-- R77 to R79, R90: the slot after a FAULT. -/
def afterFault (cause : Cause) (o : Order) (length : Nat) (s : State) : State :=
  match s.active.state with
  | .running => if cause.isAbortClass then abortOnReport cause none o length s else afterStall cause o length s
  | .ending => abortPlan (endingRecord s) s
  | .empty => s
  | .paused => s
  | .done => s
  | .aborted => s

/-- R74, R77: SEGMENT FAULT as its owner takes it. -/
def runSegmentFault (tag cause length time : Nat) (s : State) : State :=
  match causeOfCode cause with
  | none => refuse 0x11 .range s
  | some c => takeReport 0x11 tag false length time (afterFault c) s

/-- SEGMENT_FAULT (R77). -/
def execSegmentFault (tag cause length time : Nat) (s : State) : Host.Outcome State Fault Refusal :=
  takeCommand 0 (.segmentFault tag cause length time) (runSegmentFault tag cause length time) s

/-! ### CLOSE SLAB -/

/-- R93: whether the active slot is ABORTED on a slab. -/
def abortedOn (s : State) (slab : Nat) : Bool := s.active.state == .aborted && s.active.plan.slab == slab

/-- R93: the checks of CLOSE SLAB, in order. -/
def closeChecks (slab mode job : Nat) (s : State) : List (Bool × Reason) :=
  let state := (findSlab s slab).map (·.state)
  let alone := mode == 0 && !abortedOn s slab
  [(!isSlabId slab || 1 < mode, .range), (state.isNone, .unknownSlab), (state == some .gone, .slabGone),
    (state != some .cutOpen, .state), (!isHeld s slab, .heldElsewhere), (alone && job == 0, .range),
    (alone && !jobOpen s job, .jobNotOpen)]

/-- R94, R110: the shares a SCRAP charges: over the aborted plan's pieces with no remnant, or one share of the outline to
the job named. -/
def scrapLines (slab job : Nat) (s : State) : List ShareLine :=
  let c := contentsOf s slab
  if abortedOn s slab then apportion c s.active.plan.pieces 0
  else
    let area := areaOf c.width c.height
    [⟨job, area, materialCents c.price area⟩]

/-- R171, 12: the reply frames of a settlement: five lines a frame, the first with the number of lines. -/
def settlementFrames (lines : List ShareLine) : List Report :=
  .accepted 0x12 (.settlement (some lines.length) (lines.take 5)) ::
    ([(lines.drop 5).take 5, (lines.drop 10).take 5, (lines.drop 15).take 5].filter (!·.isEmpty)).map
      fun part => .accepted 0x12 (.settlement none part)

/-- R94: the active slot on the settled slab is cleared, its jobs' in-use counts falling. -/
def clearSettled (slab : Nat) (s : State) : State :=
  if abortedOn s slab then emptyActive (releaseJobs (distinctJobs s.active.plan.pieces) s) else s

/-- R94: SCRAP: the lines posted, the slab GONE, RETIRE SCRAPPED handed, a VALID staged plan on it STALE. -/
def scrapSlab (slab : Nat) (lines : List ShareLine) (s : State) : State :=
  stalePlan slab .gone (announce (.retire slab 1) (setSlabState slab .gone (postMaterial lines s)))

/-- R93, R94: CLOSE SLAB as its owner takes it. -/
def runCloseSlab (slab mode job : Nat) (s : State) : State :=
  checked 0x12 (closeChecks slab mode job s)
    (fun s =>
      let lines := if mode = 0 then scrapLines slab job s else []
      let s := reports (settlementFrames lines) s
      let s := if mode = 0 then scrapSlab slab lines s else setSlabState slab .stock s
      clearSettled slab (releaseClaim slab s)) s

/-- CLOSE_SLAB (R93, R94). -/
def execCloseSlab (slab mode job : Nat) (s : State) : Host.Outcome State Fault Refusal :=
  takeCommand 0 (.closeSlab slab mode job) (runCloseSlab slab mode job) s

end Sys2Proof.Machine
end

