-- ==== Sys2Proof/Machine/StationCommands.lean ====
section
/-! DEFINITION. Commands on the station: PURGE NOW (07 R134), JOIN (09 R163), READ STATION and READ PEERS (10 R177, R178),
SET STATION, WRITE CONFIG, WRITE CALIBRATION and STORE ERASE (11 R180, R182, R185). -/

namespace Sys2Proof.Machine

/-- R134: PURGE NOW as its owner takes it. -/
def runPurgeNow (s : State) : State :=
  if s.floor.attach = .muted then refuse 0x17 .muted s
  else if s.floor.attach ≠ .active then refuse 0x17 .lineInert s
  else if s.sump.state = .wantPress ∨ s.sump.state = .purging then refuse 0x17 .state s
  else if s.sump.volume = 0 then refuse 0x17 .state s
  else
    let s := accept 0x17 s
    wantPress { s with sump := { s.sump with retry := none } }

/-- PURGE_NOW (R134). -/
def execPurgeNow (s : State) : Host.Outcome State Fault Refusal := takeCommand 0 .purgeNow runPurgeNow s

/-- R156, R163: JOIN as its owner takes it. -/
def runJoin (s : State) : State :=
  if s.floor.attach ≠ .inert ∨ s.station.number.isNone = true then refuse 0x18 .state s
  else
    let s := accept 0x18 s
    { s with floor := { s.floor with attach := .listening, inStep := false, listenIn := some 2500, drive := none } }

/-- JOIN (R163). -/
def execJoin (s : State) : Host.Outcome State Fault Refusal := takeCommand 0 .join runJoin s

/-- R177: the STATION VIEW as the part stands. -/
def stationView (s : State) : StationView where
  station := s.station.number
  attach := s.floor.attach
  clamped := s.settings.clamped
  degraded := s.settings.degraded
  overflow := s.host.overflow
  leftOut := s.store.leftOut
  damaged := s.store.damaged
  sumpDefault := s.store.sumpDefault
  serialDefault := s.store.serialDefault
  storeFaults := s.store.faults
  idleRecycled := s.water.idleRecycled
  idleFresh := s.water.idleFresh
  volume := s.sump.volume
  purge := s.sump.state
  dropped := s.host.dropped
  truncated := s.host.truncated
  checkErrors := s.floor.checkErrors
  formatErrors := s.floor.formatErrors
  lostNotices := s.floor.lostNotices
  lineFaults := s.floor.lineFaults
  retryDrops := s.floor.retryDrops
  backlogDrops := s.floor.backlogDrops
  conflicts := s.claims.conflicts
  discarded := s.register.discarded
  refused := s.register.refused

/-- R177: the view handed; the inbound overflow flag clears when it is admitted. -/
def sendView (v : StationView) (s : State) : State :=
  let t := report (.stationView v) s
  if admits (.stationView v) s then { t with host := { t.host with overflow := false } } else t

/-- R177: READ STATION as its owner takes it; the view shows the part as the command is taken. -/
def runReadStation (s : State) : State := sendView (stationView s) (accept 0x19 s)

/-- READ_STATION (R177). -/
def execReadStation (s : State) : Host.Outcome State Fault Refusal := takeCommand 0 .readStation runReadStation s

/-- R178: the view of a station's entry, the time since it was last heard in tenths. -/
def peerEntry (s : State) (k : Nat) : PeerEntry :=
  let p := peerOf s k
  { unused := s.station.number == some k, presence := p.presence, busy := p.busy, demand := p.demand
    heard := if p.presence = .absent then none else p.heard.map tenthsOf, fingerprint := p.fingerprint }

/-- R178: a PEER VIEW frame of `count` stations from `first`. -/
def peerFrame (s : State) (first count : Nat) : Report :=
  .peerView first ((List.range count).map fun i => peerEntry s (first + i))

/-- R178: the five PEER VIEW frames. -/
def peerFrames (s : State) : List Report :=
  [peerFrame s 0 7, peerFrame s 7 7, peerFrame s 14 7, peerFrame s 21 7, peerFrame s 28 3]

/-- R178: READ PEERS as its owner takes it. -/
def runReadPeers (s : State) : State := reports (peerFrames s) (accept 0x1A s)

/-- READ_PEERS (R178). -/
def execReadPeers (s : State) : Host.Outcome State Fault Refusal := takeCommand 0 .readPeers runReadPeers s

/-- R180: SET STATION as its owner takes it. -/
def runSetStation (first second number : Nat) (s : State) : State :=
  if first ≠ 0xA6 ∨ second ≠ 0x3C ∨ 30 < number then refuse 0x1B .range s
  else if s.floor.attach ≠ .inert ∨ s.station.straps ≤ 30 ∨ s.station.setNumber.isSome = true then refuse 0x1B .state s
  else
    let s := acceptWith 0x1B (.number number) s
    { s with station := { s.station with setNumber := some number } }

/-- SET_STATION (R180). -/
def execSetStation (first second number : Nat) (s : State) : Host.Outcome State Fault Refusal :=
  takeCommand 0 (.setStation first second number) (runSetStation first second number) s

/-- R182: WRITE CONFIG as its owner takes it. -/
def runWriteConfig (fields : ConfigFields) (s : State) : State :=
  if s.floor.attach ≠ .inert then refuse 0x1C .state s
  else
    let s := accept 0x1C s
    queueWrite .config { s with store := { s.store with newConfig := some fields } }

/-- WRITE_CONFIG (R182). -/
def execWriteConfig (fields : ConfigFields) (s : State) : Host.Outcome State Fault Refusal :=
  takeCommand 0 (.writeConfig fields) (runWriteConfig fields) s

/-- R182: WRITE CALIBRATION as its owner takes it. -/
def runWriteCalibration (kRecycled kFresh : Nat) (s : State) : State :=
  if s.floor.attach ≠ .inert then refuse 0x1D .state s
  else
    let s := accept 0x1D s
    queueWrite .calibration { s with store := { s.store with newCalibration := some (kRecycled, kFresh) } }

/-- WRITE_CALIBRATION (R182). -/
def execWriteCalibration (kRecycled kFresh : Nat) (s : State) : Host.Outcome State Fault Refusal :=
  takeCommand 0 (.writeCalibration kRecycled kFresh) (runWriteCalibration kRecycled kFresh) s

/-- R185: a pending entry that the erase withdraws. -/
def StorePlace.isRecord : StorePlace → Bool
  | .slab _ => true
  | .job _ => true
  | .sump => false
  | .serial => false
  | .config => false
  | .calibration => false
  | .erase => false

/-- R21, R152, R185: the records gone, the reservations 0, their pending writes withdrawn, the erase queued. -/
def eraseRecords (s : State) : State :=
  queueWrite .erase { s with
    register := { s.register with places := s.register.places.map fun _ => none, reservations := 0 }
    jobs := s.jobs.map fun _ => none
    store := { s.store with queue := s.store.queue.filter fun p => !p.isRecord } }

/-- R62, R185: a VALID staged plan goes STALE, its slab removed. -/
def staleErased (s : State) : State := s.staged.plan?.elim s fun p => stalePlan p.slab .gone s

/-- R185: STORE ERASE as its owner takes it. -/
def runStoreErase (s : State) : State :=
  if s.floor.attach ≠ .inert then refuse 0x1E .state s else eraseRecords (staleErased (accept 0x1E s))

/-- STORE_ERASE (R185). -/
def execStoreErase (s : State) : Host.Outcome State Fault Refusal := takeCommand 0 .storeErase runStoreErase s

end Sys2Proof.Machine
end

