-- ==== Sys2Proof/Machine/TimerEvents.lean ====
section
/-! DEFINITION. The expiries of the part's own timers. An expiry is taken whenever its timer runs (log entry 6); where it
does not run, nothing changes. -/

namespace Sys2Proof.Machine

/-- R31: the settle timer of an entry stopped. -/
def stopSettle (handle : Nat) (s : State) : State := mapClaim handle (fun e => { e with settle := none }) s

/-- SETTLE_TIMER_EXPIRY (R31): a confirm POLL, or LINE NOISY when all four are spent. -/
def execSettleTimerExpiry (resource : Nat) (s : State) : Host.Outcome State Fault Refusal :=
  .next (match claimOn s resource with
    | none => s
    | some e => if e.settle.isSome then pollSpoiled e.handle (stopSettle e.handle s) else s)

/-- R163, R165: this station's HELLO. -/
def ownHello (s : State) : Notice := .hello s.settings.cfg.supply s.settings.cfg.rate s.settings.cfg.press

/-- R163: the end of the listen-in: HELLO handed, ACTIVE, DEMAND handed, the threshold tested. -/
def goActive (s : State) : State :=
  let s := handNotice (ownHello s) none s
  testThreshold (sendDemand { s with floor := { s.floor with attach := .active, listenIn := none } })

/-- LISTEN_IN_EXPIRY (R163). -/
def execListenInExpiry (s : State) : Host.Outcome State Fault Refusal :=
  .next (if s.floor.listenIn.isSome = true ∧ s.floor.attach = .listening then goActive s else s)

/-- ANNOUNCE_TIMER_EXPIRY (R16). -/
def execAnnounceTimerExpiry (s : State) : Host.Outcome State Fault Refusal :=
  .next (match s.register.sweep with
    | some sweep => sweepStep sweep.cursor s
    | none => s)

/-- DEMAND_REFRESH_EXPIRY (R112). -/
def execDemandRefreshExpiry (s : State) : Host.Outcome State Fault Refusal :=
  .next (if s.water.refresh.isSome then sendDemand (stopRefresh s) else s)

/-- RESUME_DWELL_EXPIRY (R118, R83). -/
def execResumeDwellExpiry (s : State) : Host.Outcome State Fault Refusal :=
  .next (if s.water.dwell.isSome then
    launchWrite (dwellEnded { s with water := { s.water with dwell := none } }) else s)

/-- OVERRUN_EXPIRY (R87). -/
def execOverrunExpiry (s : State) : Host.Outcome State Fault Refusal :=
  .next (if s.active.overrun.isSome then
    let t := { s with active := { s.active with overrun := none } }
    match s.active.state, s.active.order with
    | .running, some o => stopRunning o .overrun t
    | _, _ => t
  else s)

/-- R88: the order ends without a report: UNREPORTED PORTION, the record discarded, its unread frames withdrawn, its
counts to the idle tallies. -/
def endUnreported (o : Order) (s : State) : State :=
  dropOrder o (trap (.unreportedPortion o.tag) s.active.plan.number (some o.segment) s)

/-- STOP_WAIT_EXPIRY (R88, R90): a plan in ENDING goes ABORTED; an ABORTED slot loses its order. -/
def execStopWaitExpiry (s : State) : Host.Outcome State Fault Refusal :=
  .next (if s.active.stopWait.isSome then
    match s.active.order with
    | none => { s with active := { s.active with stopWait := none } }
    | some o =>
        let t := endUnreported o s
        if s.active.state = .ending then launchWrite (abortPlan (s.active.fault.getD (stopRecord s .hostAbort)) t) else t
  else s)

/-- R132: a purge timed out: the valve closed, the press released, PURGE TIMEOUT trapped, RETRY WAIT for 30 s. -/
def purgeTimedOut (s : State) : State :=
  let s := releaseClaim (ownPress s) { s with sump := { s.sump with purge := none } }
  pressRetry (trap (.purgeTimeout s.settings.cfg.press s.sump.snapshot s.sump.volume) 0 none s)

/-- PURGE_TIMER_EXPIRY (R132). -/
def execPurgeTimerExpiry (s : State) : Host.Outcome State Fault Refusal :=
  .next (if s.sump.purge.isSome = true ∧ s.sump.state = .purging then purgeTimedOut s else s)

/-- RETRY_TIMER_EXPIRY (R133). -/
def execRetryTimerExpiry (s : State) : Host.Outcome State Fault Refusal :=
  .next (if s.sump.retry.isSome = true ∧ s.sump.state = .retryWait then
    let t := { s with sump := { s.sump with retry := none } }
    if purgeDue t then wantPress t else pressIdle t
  else s)

/-- R164: a peer's heard timer has reached a mark. A notice taken first restarts the timer, and the mark is not
reached. -/
def heardFor (ms : Nat) (p : Peer) : Bool := p.heard.any (ms ≤ ·)

/-- PEER_LAPSE (R164): the heard timer reaches 2 s: a PRESENT entry goes LAPSED. -/
def execPeerLapse (station : Nat) (s : State) : Host.Outcome State Fault Refusal :=
  .next (
    let p := peerOf s station
    if p.presence = .present ∧ heardFor 2000 p = true then
      recomputeWater (setPeer station { p with presence := .lapsed } s)
    else s)

/-- PEER_ABSENT (R164): the heard timer reaches 60 s: a LAPSED entry goes ABSENT and is blank again. -/
def execPeerAbsent (station : Nat) (s : State) : Host.Outcome State Fault Refusal :=
  .next (
    let p := peerOf s station
    if p.presence = .lapsed ∧ heardFor 60000 p = true then recomputeWater (setPeer station Peer.absent s) else s)

end Sys2Proof.Machine
end

