-- ==== Sys2Proof/Machine/Dispatch.lean ====
section
/-! DEFINITION. One arm per command, each one direct call of its meaning. -/

namespace Sys2Proof.Machine

/-- The effect of a command on everything but the queue of waiting commands. -/
def exec (i : Instr) (s : State) : Host.Outcome State Fault Refusal :=
  match i with
  | .pinReset straps => Sys2Proof.Machine.execPinReset straps s
  | .transactionStart => Sys2Proof.Machine.execTransactionStart s
  | .inboundFrame kind body taken => Sys2Proof.Machine.execInboundFrame kind body taken s
  | .malformedFrame => Sys2Proof.Machine.execMalformedFrame s
  | .selectInactive cut => Sys2Proof.Machine.execSelectInactive cut s
  | .outboundFrameRead => Sys2Proof.Machine.execOutboundFrameRead s
  | .enterSlab cls thickness width height price defects => Sys2Proof.Machine.execEnterSlab cls thickness width height price defects s
  | .readSlab slab => Sys2Proof.Machine.execReadSlab slab s
  | .listSlabs start => Sys2Proof.Machine.execListSlabs start s
  | .take slab job => Sys2Proof.Machine.execTake slab job s
  | .give slab => Sys2Proof.Machine.execGive slab s
  | .planHead plan slab => Sys2Proof.Machine.execPlanHead plan slab s
  | .planPieces pieces => Sys2Proof.Machine.execPlanPieces pieces s
  | .planRemnants remnants => Sys2Proof.Machine.execPlanRemnants remnants s
  | .planSegments segments => Sys2Proof.Machine.execPlanSegments segments s
  | .planEnd => Sys2Proof.Machine.execPlanEnd s
  | .dropPlan => Sys2Proof.Machine.execDropPlan s
  | .startPlan => Sys2Proof.Machine.execStartPlan s
  | .abortPlan => Sys2Proof.Machine.execAbortPlan s
  | .continuePlan => Sys2Proof.Machine.execContinue s
  | .segmentDone tag length time => Sys2Proof.Machine.execSegmentDone tag length time s
  | .segmentPaused tag length time => Sys2Proof.Machine.execSegmentPaused tag length time s
  | .segmentFault tag cause length time => Sys2Proof.Machine.execSegmentFault tag cause length time s
  | .closeSlab slab mode job => Sys2Proof.Machine.execCloseSlab slab mode job s
  | .openJob job estimate => Sys2Proof.Machine.execOpenJob job estimate s
  | .closeJob job => Sys2Proof.Machine.execCloseJob job s
  | .freeJob job => Sys2Proof.Machine.execFreeJob job s
  | .readJob job => Sys2Proof.Machine.execReadJob job s
  | .purgeNow => Sys2Proof.Machine.execPurgeNow s
  | .join => Sys2Proof.Machine.execJoin s
  | .readStation => Sys2Proof.Machine.execReadStation s
  | .readPeers => Sys2Proof.Machine.execReadPeers s
  | .setStation first second number => Sys2Proof.Machine.execSetStation first second number s
  | .writeConfig fields => Sys2Proof.Machine.execWriteConfig fields s
  | .writeCalibration kRecycled kFresh => Sys2Proof.Machine.execWriteCalibration kRecycled kFresh s
  | .storeErase => Sys2Proof.Machine.execStoreErase s
  | .restart straps => Sys2Proof.Machine.execRestart straps s
  | .pollReceived station resource => Sys2Proof.Machine.execPollReceived station resource s
  | .claimReceived station resource job => Sys2Proof.Machine.execClaimReceived station resource job s
  | .releaseReceived station resource => Sys2Proof.Machine.execReleaseReceived station resource s
  | .demandReceived station demand => Sys2Proof.Machine.execDemandReceived station demand s
  | .retireReceived station slab reason => Sys2Proof.Machine.execRetireReceived station slab reason s
  | .slabReceived station slab contents => Sys2Proof.Machine.execSlabReceived station slab contents s
  | .helloReceived station supply rate press => Sys2Proof.Machine.execHelloReceived station supply rate press s
  | .checkError kind station resource => Sys2Proof.Machine.execCheckError kind station resource s
  | .formatError kind station resource => Sys2Proof.Machine.execFormatError kind station resource s
  | .lossOfStep => Sys2Proof.Machine.execLossOfStep s
  | .stuckLine => Sys2Proof.Machine.execStuckLine s
  | .receiverResync => Sys2Proof.Machine.execReceiverResync s
  | .transmitAttempt => Sys2Proof.Machine.execTransmitAttempt s
  | .attemptAbandoned => Sys2Proof.Machine.execAttemptAbandoned s
  | .noticeSent => Sys2Proof.Machine.execNoticeSent s
  | .ownPollWindow slots => Sys2Proof.Machine.execOwnPollWindow slots s
  | .settleTimerExpiry resource => Sys2Proof.Machine.execSettleTimerExpiry resource s
  | .listenInExpiry => Sys2Proof.Machine.execListenInExpiry s
  | .announceTimerExpiry => Sys2Proof.Machine.execAnnounceTimerExpiry s
  | .demandRefreshExpiry => Sys2Proof.Machine.execDemandRefreshExpiry s
  | .resumeDwellExpiry => Sys2Proof.Machine.execResumeDwellExpiry s
  | .overrunExpiry => Sys2Proof.Machine.execOverrunExpiry s
  | .stopWaitExpiry => Sys2Proof.Machine.execStopWaitExpiry s
  | .purgeTimerExpiry => Sys2Proof.Machine.execPurgeTimerExpiry s
  | .retryTimerExpiry => Sys2Proof.Machine.execRetryTimerExpiry s
  | .peerLapse station => Sys2Proof.Machine.execPeerLapse station s
  | .peerAbsent station => Sys2Proof.Machine.execPeerAbsent station s
  | .meterPulse meter => Sys2Proof.Machine.execMeterPulse meter s
  | .pressDone => Sys2Proof.Machine.execPressDone s
  | .storeWriteDone => Sys2Proof.Machine.execStoreWriteDone s
  | .storeWriteTimeout => Sys2Proof.Machine.execStoreWriteTimeout s
  | .startUpEnd => Sys2Proof.Machine.execStartUpEnd s
  | .readMarker => Sys2Proof.Machine.execReadMarker s
  | .frameReadBegun => Sys2Proof.Machine.execFrameReadBegun s

end Sys2Proof.Machine
end

