-- ==== Sys2Proof/Machine/Clock.lean ====
section
/-! DEFINITION. The part's own clock (log entry 5): what a step does when no command waits. Every timer is held in
milliseconds left; a peer's heard timer counts up (R164). Either one of the expiries that are due is taken, which one being
free, or a millisecond passes. -/

namespace Sys2Proof.Machine

/-- A timer a millisecond later. -/
def tickTimer (t : Timer) : Timer := t.map (· - 1)

/-- A sweep's timer a millisecond later. -/
def tickSweep (w : Sweep) : Sweep := { w with timer := w.timer - 1 }

/-- A claim entry's settle timer a millisecond later. -/
def tickClaim (e : ClaimEntry) : ClaimEntry := { e with settle := tickTimer e.settle }

/-- A peer's heard timer a millisecond later. -/
def tickPeer (p : Peer) : Peer := { p with heard := p.heard.map (· + 1) }

/-- A write in flight a millisecond later. -/
def tickWrite (w : StoreWrite) : StoreWrite := { w with timer := w.timer - 1 }

/-- A millisecond of the part's clock. -/
def tick (s : State) : State :=
  { s with
    floor := { s.floor with listenIn := tickTimer s.floor.listenIn }
    peers := s.peers.map tickPeer
    register := { s.register with sweep := s.register.sweep.map tickSweep }
    claims := { s.claims with entries := s.claims.entries.map tickClaim }
    active := { s.active with overrun := tickTimer s.active.overrun, stopWait := tickTimer s.active.stopWait }
    water := { s.water with dwell := tickTimer s.water.dwell, refresh := tickTimer s.water.refresh }
    sump := { s.sump with purge := tickTimer s.sump.purge, retry := tickTimer s.sump.retry }
    store := { s.store with inFlight := s.store.inFlight.map tickWrite } }

/-- A command that is due when a condition holds. -/
def dueIf (b : Bool) (c : Instr) : List Instr := if b then [c] else []

/-- R31: the settle timers due. -/
def dueSettles (s : State) : List Instr :=
  s.claims.entries.flatMap fun e => dueIf (e.settle == some 0) (.settleTimerExpiry e.resource)

/-- R164: the marks a peer's heard timer has reached. -/
def duePeer (k : Nat) (p : Peer) : List Instr :=
  dueIf (p.presence == .present && heardFor 2000 p) (.peerLapse k)
    ++ dueIf (p.presence == .lapsed && heardFor 60000 p) (.peerAbsent k)

/-- R164: the marks reached in the peer table; this station's own entry is unused. -/
def duePeers (s : State) : List Instr :=
  (s.peers.mapIdx fun k p => if s.station.number = some k then [] else duePeer k p).flatten

/-- The expiries that are due. -/
def dueCommands (s : State) : List Instr :=
  dueSettles s
    ++ dueIf (s.floor.listenIn == some 0 && s.floor.attach == .listening) .listenInExpiry
    ++ dueIf (s.register.sweep.any (·.timer == 0)) .announceTimerExpiry
    ++ dueIf (s.water.refresh == some 0) .demandRefreshExpiry
    ++ dueIf (s.water.dwell == some 0) .resumeDwellExpiry
    ++ dueIf (s.active.overrun == some 0) .overrunExpiry
    ++ dueIf (s.active.stopWait == some 0) .stopWaitExpiry
    ++ dueIf (s.sump.purge == some 0 && s.sump.state == .purging) .purgeTimerExpiry
    ++ dueIf (s.sump.retry == some 0 && s.sump.state == .retryWait) .retryTimerExpiry
    ++ duePeers s
    ++ dueIf (s.store.inFlight.any (·.timer == 0)) .storeWriteTimeout

/-- Which of the due expiries is taken: a free choice (log entry 5). -/
def chooseDue (s : State) (due : List Instr) : Option Instr := due[Config.dueChoice s.freeUses % due.length]?

/-- A step with no command waiting. -/
def idle (s : State) : Host.Outcome State Fault Refusal :=
  match chooseDue s (dueCommands s) with
  | some c => exec c { s with freeUses := s.freeUses + 1 }
  | none => .next (tick s)

end Sys2Proof.Machine
end

