-- ==== Sys2Proof/Safety.lean ====
section
/-! DEFINITION. What holds of the part at every moment, and what a command finds and leaves, in the terms the statements
use. -/

namespace Sys2Proof.Safety

open Sys2Proof.Machine

/-! ### What holds at every moment -/

/-- R172: the outbound queue's limits: 20 frames and 768 bytes, with 18 and 672 before the order reserve. -/
abbrev outboundBounded (s : State) : Prop := s.host.outbound.length ≤ 20 ∧ heldBytes s.host.outbound ≤ 768

/-- R169: the inbound queue's limits: 12 frames and 384 bytes. -/
abbrev inboundBounded (s : State) : Prop :=
  s.host.inbound.length ≤ 12 ∧ (s.host.inbound.map inboundSize).sum ≤ 384

/-- R161: the transmit queue's limit. -/
abbrev transmitBounded (s : State) : Prop := s.floor.queue.length ≤ 16

/-- The three queues the part keeps for others stay within the limits their rules give. -/
abbrev queuesBounded (s : State) : Prop := outboundBounded s ∧ inboundBounded s ∧ transmitBounded s

/-- R9, R137, R164, R186: the tables keep their number of places: 64, 24 and 31, and 64 and 24 in the store. -/
abbrev tablesSized (s : State) : Prop :=
  s.register.places.length = 64 ∧ s.jobs.length = 24 ∧ s.peers.length = 31 ∧ s.store.slabs.length = 64 ∧
    s.store.jobs.length = 24

/-- R3: the register keeps at most one record for any id. -/
abbrev slabsDistinct (s : State) : Prop := ((slabRecords s).map (·.id)).Nodup

/-- R9: the occupied records and the reservations together never exceed 64. -/
abbrev placesWithin (s : State) : Prop := (slabRecords s).length + s.register.reservations ≤ 64

/-- R22: at most eight entries, no two for one resource; the model's handles tell them apart. -/
abbrev claimsSound (s : State) : Prop :=
  s.claims.entries.length ≤ 8 ∧ (s.claims.entries.map (·.resource)).Nodup ∧
    (s.claims.entries.map (·.handle)).Nodup ∧ ∀ e ∈ s.claims.entries, e.handle < s.claims.nextHandle

/-- R183: each place has at most one pending entry in the store write queue. -/
abbrev writesDistinct (s : State) : Prop := s.store.queue.Nodup

/-- R67, R70, R74, R86 to R90: the order in flight, its timers and the state of the active slot go together. -/
def orderFits (s : State) : Prop :=
  match s.active.state with
  | .running => s.active.order.any (!·.stopped) = true ∧ s.active.overrun.isSome = true ∧ s.active.stopWait = none
  | .ending => s.active.order.any (·.stopped) = true ∧ s.active.overrun = none ∧ s.active.stopWait.isSome = true
  | .aborted =>
      s.active.overrun = none ∧ s.active.order.all (·.stopped) = true ∧
        s.active.stopWait.isSome = s.active.order.isSome
  | .empty => s.active.order = none ∧ s.active.overrun = none ∧ s.active.stopWait = none
  | .paused => s.active.order = none ∧ s.active.overrun = none ∧ s.active.stopWait = none
  | .done => s.active.order = none ∧ s.active.overrun = none ∧ s.active.stopWait = none

/-- R163, R166, R41: what muting leaves: nothing waits to be sent, no window is under way, no claim is held. -/
abbrev mutedAndSilent (s : State) : Prop :=
  s.floor.attach = .muted ∧ s.floor.queue = [] ∧ s.floor.window = none ∧ s.claims.entries = []

/-- R156, R163: slots are driven by a receiver in step, in ACTIVE. -/
abbrev drivesInStep (s : State) : Prop :=
  s.floor.drive ≠ none → s.floor.inStep = true ∧ s.floor.attach = .active

/-- R71, R173: the order frames that wait unread in the outbound queue. -/
def unreadOrders (s : State) : List Report :=
  (s.host.outbound.filter fun f => !f.begun && f.report.isOrder).map (·.report)

/-- R71: at most the SEGMENT ORDER of the order in flight and one update frame for it wait unread, and none with no order in
flight; an ABORTED slot keeps an order only when muted (R90). -/
def orderFramesWait (s : State) : Prop :=
  (s.active.state = .aborted → s.active.order ≠ none → mutedAndSilent s) ∧
  (∀ r ∈ unreadOrders s, ∃ o, s.active.order = some o ∧ r.orderTag = some o.tag) ∧
  ((unreadOrders s).filter (·.updateTag.isNone)).length ≤ 1 ∧
  ((unreadOrders s).filter (·.updateTag.isSome)).length ≤ 1

/-- R161, R113: the transmit queue in order of kind and then of age, at most one entry of it being sent and at most one
DEMAND waiting. -/
def transmitOrdered (s : State) : Prop :=
  (s.floor.queue.Pairwise fun a b =>
    a.notice.kind < b.notice.kind ∨ (a.notice.kind = b.notice.kind ∧ a.age < b.age)) ∧
  (∀ e ∈ s.floor.queue, e.age < s.floor.nextAge) ∧
  (s.floor.queue.filter (·.sending)).length ≤ 1 ∧
  (s.floor.queue.filter fun e => !e.sending && e.notice.kind == 4).length ≤ 1

/-- R146: a job record's total is the saturated sum of its five cost components. -/
def totalHolds (j : JobRecord) : Prop :=
  j.total = min max32 (j.machine + j.water + j.wearCents + j.disposal + j.material)

/-- R146, R150: the total of a good stored copy. -/
def copyHolds (bytes : List Byte) : Prop := goodCheck bytes = true → ∀ j, jobOfBytes bytes = some j → totalHolds j

/-- R137, R141, R146: job numbers are distinct; a record in use is OPEN; every count is within 32 bits and every total the
sum; the same of the copies in the store and of the one going out. -/
def jobsSound (s : State) : Prop :=
  ((s.jobs.filterMap fun o => o).map (·.number)).Nodup ∧
  (∀ j, some j ∈ s.jobs → (0 < j.inUse → j.closed = false) ∧ (∀ n ∈ j.counts, n ≤ max32) ∧ totalHolds j) ∧
  (∀ bytes ∈ s.store.jobs, copyHolds bytes) ∧
  (∀ w i, s.store.inFlight = some w → w.place = .job i → copyHolds w.bytes)

/-- R65, R67, R81: a plan is RUNNING, PAUSED or ENDING only on an ACTIVE line while its slab is CUTTING and claimed here;
PAUSED only with a cause pending. A staged plan names a slab id (R45). -/
def planHolds (s : State) : Prop :=
  (∀ p, s.staged.plan? = some p → isSlabId p.slab = true) ∧
  (s.active.state = .running ∨ s.active.state = .paused ∨ s.active.state = .ending →
    s.floor.attach = .active ∧ isSlabId s.active.plan.slab = true ∧
    (∃ r, findSlab s s.active.plan.slab = some r ∧ r.state = .cutting) ∧
    (∃ e, claimOn s s.active.plan.slab = some e ∧ e.stage = .held)) ∧
  (s.active.state = .paused → s.active.pending ≠ ⟨false, false, false, false, false⟩)

/-! ### The settings (R181, R182) -/

/-- R181: a value held within a range: the nearer bound where it lies outside, itself where it lies within. -/
def heldWithin (lo hi value held : Nat) : Prop :=
  (value < lo → held = lo) ∧ (hi < value → held = hi) ∧ (lo ≤ value → value ≤ hi → held = value)

/-- R181, R127: the range of every field, `c` being the values carried and `f` those in force. Fresh makeup's range 0..1 is
log entry 37. -/
def fieldsHeld (c f : ConfigFields) : Prop :=
  heldWithin 0 2 c.rate f.rate ∧ heldWithin 10 2000 c.supply f.supply ∧ heldWithin 300 6000 c.f0 f.f0 ∧
  heldWithin 100 2000 c.fmin f.fmin ∧ heldWithin f.fmin 8000 c.fmax f.fmax ∧ heldWithin 0 5 c.overcut f.overcut ∧
  heldWithin 2 8 c.kerf f.kerf ∧ f.hardness.length = c.hardness.length ∧
  (∀ i < c.hardness.length, heldWithin 50 250 (c.hardness.getD i 0) (f.hardness.getD i 0)) ∧
  heldWithin 5 120 c.qnom f.qnom ∧ heldWithin 1 f.qnom c.qmin f.qmin ∧ heldWithin 0 65535 c.machineRate f.machineRate ∧
  heldWithin 0 10000 c.priceRecycled f.priceRecycled ∧ heldWithin 0 10000 c.priceFresh f.priceFresh ∧
  heldWithin 0 1000 c.priceWear f.priceWear ∧ heldWithin 0 1000 c.priceDisposal f.priceDisposal ∧
  heldWithin 0 1 c.makeup f.makeup ∧ heldWithin 0 60 c.freshLimit f.freshLimit ∧ heldWithin 0 50 c.margin f.margin ∧
  heldWithin 0 30 c.guard f.guard ∧ heldWithin 1000 998999 c.threshold f.threshold ∧
  heldWithin (f.threshold + 1000) 999999 c.hardLimit f.hardLimit ∧ heldWithin 0 7 c.press f.press ∧
  heldWithin 60 900 c.purgeTime f.purgeTime

/-- R181, R182: every setting in force lies within its range. -/
def settingsInRange (t : Settings) : Prop := fieldsHeld t.cfg t.cfg ∧ heldWithin 10 250 t.kRecycled t.kRecycled ∧
  heldWithin 10 250 t.kFresh t.kFresh

/-! ### The ranges of a host command's fields and of a SLAB notice (01, 03) -/

/-- R1: a slab id is a station number 0..30 times 2048 plus a serial 1..2047. -/
def namesSlab (n : Nat) : Prop := ∃ station serial, station ≤ 30 ∧ 1 ≤ serial ∧ serial ≤ 2047 ∧ n = station * 2048 + serial

/-- R1: press n is 65,528 + n, n 0..7. -/
def namesPress (n : Nat) : Prop := ∃ press, press ≤ 7 ∧ n = 65528 + press

/-- R3, R4: slab contents within their ranges, a defect's least width and height being 1 entered and 0 in a notice. -/
def contentsHold (least : Nat) (c : SlabContents) : Prop :=
  c.cls ≤ 7 ∧ 10 ≤ c.thickness ∧ c.thickness ≤ 60 ∧ 100 ≤ c.width ∧ c.width ≤ 4000 ∧ 100 ≤ c.height ∧ c.height ≤ 4000 ∧
    c.price ≤ 65535 ∧ (∀ p, c.parent = some p → namesSlab p) ∧ c.defects.length ≤ 6 ∧
    ∀ d ∈ c.defects, least ≤ d.w ∧ least ≤ d.h ∧ d.x + d.w ≤ c.width ∧ d.y + d.h ≤ c.height

/-- R43: the coordinate limits of a piece and of a remnant. -/
def rectHolds (r : Rect) : Prop :=
  r.x ≤ 4000 ∧ r.y ≤ 4000 ∧ 1 ≤ r.w ∧ r.w ≤ 4000 ∧ 1 ≤ r.h ∧ r.h ≤ 4000 ∧ r.x + r.w ≤ 4000 ∧ r.y + r.h ≤ 4000

/-- R44, 12: a segment entry's limits at loading, the depth in bits 0 to 5 of the mode byte, 0 for THROUGH. -/
def segmentHolds (e : SegmentEntry) : Prop :=
  (∀ v ∈ [e.startX, e.startY, e.endX, e.endY], -200 ≤ v ∧ v ≤ 4200) ∧ e.mode % 64 ≤ 60 ∧ e.piece ≤ 15

/-- R2: the `k`-th serial from a serial on, 2047 being followed by 1. -/
def serialFrom (first k : Nat) : Nat := (first - 1 + k) % 2047 + 1

/-! ### What validation asks of a plan (03, R5), in the numbers of the slab and the plan -/

/-- R5: how far a defect's excluded rectangle goes beyond it. -/
def guardOf (cfg : ConfigFields) (d : Defect) : Nat := if d.kind = .fissure then cfg.guard else 0

/-- R5: a rectangle's interior meets a defect's excluded rectangle, which is clipped to the outline for a FISSURE and
excludes nothing when it has no width or no height. -/
def meetsDefect (cfg : ConfigFields) (c : SlabContents) (r : Rect) (d : Defect) : Prop :=
  let g := guardOf cfg d
  let right := if d.kind = .fissure then min c.width (d.x + d.w + g) else d.x + d.w
  let top := if d.kind = .fissure then min c.height (d.y + d.h + g) else d.y + d.h
  d.x - g < right ∧ d.y - g < top ∧ r.x < right ∧ d.x - g < r.x + r.w ∧ r.y < top ∧ d.y - g < r.y + r.h

/-- R5: the margin leaves an inset outline. -/
def hasInset (cfg : ConfigFields) (c : SlabContents) : Prop := 2 * cfg.margin < c.width ∧ 2 * cfg.margin < c.height

/-- R5: a point lies inside the inset outline. -/
def insideInset (cfg : ConfigFields) (c : SlabContents) (x y : Nat) : Prop :=
  cfg.margin ≤ x ∧ x + cfg.margin ≤ c.width ∧ cfg.margin ≤ y ∧ y + cfg.margin ≤ c.height

/-- R5: a rectangle lies within the usable region. -/
def usable (cfg : ConfigFields) (c : SlabContents) (r : Rect) : Prop :=
  hasInset cfg c ∧ insideInset cfg c r.x r.y ∧ insideInset cfg c (r.x + r.w) (r.y + r.h) ∧
    ∀ d ∈ c.defects, ¬ meetsDefect cfg c r d

/-- R5: the first failure of a rectangle against the usable region: its coordinate and the index of the defect. -/
def firstRegionFailure (cfg : ConfigFields) (c : SlabContents) (r : Rect) (at' : Point) (defect : Option Nat) : Prop :=
  let corners : List (Nat × Nat) := [(r.x, r.y), (r.x + r.w, r.y), (r.x + r.w, r.y + r.h), (r.x, r.y + r.h)]
  (¬ hasInset cfg c ∧ at' = ⟨r.x, r.y⟩ ∧ defect = none) ∨
  (hasInset cfg c ∧ ∃ before q after, corners = before ++ q :: after ∧ ¬ insideInset cfg c q.1 q.2 ∧
    (∀ b ∈ before, insideInset cfg c b.1 b.2) ∧ at' = ⟨q.1, q.2⟩ ∧ defect = none) ∨
  (hasInset cfg c ∧ (∀ q ∈ corners, insideInset cfg c q.1 q.2) ∧ ∃ before d after, c.defects = before ++ d :: after ∧
    meetsDefect cfg c r d ∧ (∀ b ∈ before, ¬ meetsDefect cfg c r b) ∧ defect = some before.length ∧
    at' = ⟨max r.x (d.x - guardOf cfg d), max r.y (d.y - guardOf cfg d)⟩)

/-- R53: two items lie at least a kerf apart on some axis. -/
def apart (kerf : Nat) (a b : Rect) : Prop :=
  a.x + a.w + kerf ≤ b.x ∨ b.x + b.w + kerf ≤ a.x ∨ a.y + a.h + kerf ≤ b.y ∨ b.y + b.h + kerf ≤ a.y

/-- The pieces' and then the remnants' rectangles of a plan. -/
def itemsOf (p : Plan) : List Rect := p.pieces.map (·.rect) ++ p.remnants

/-- What an item's place in that list stands for. -/
def itemNamed (p : Plan) (i : Nat) : ItemKind × Nat :=
  if i < p.pieces.length then (.piece, i) else (.remnant, i - p.pieces.length)

/-- R53: the turn of a pair of items: pairs of pieces, of a piece and a remnant, of remnants, each by the lower index and
then the higher. -/
def pairTurn (p : Plan) (i j : Nat) : Nat × Nat × Nat :=
  (if j < p.pieces.length then 0 else if i < p.pieces.length then 1 else 2, i, j)

/-- One turn comes before another. -/
def turnBefore (a b : Nat × Nat × Nat) : Prop :=
  a.1 < b.1 ∨ (a.1 = b.1 ∧ (a.2.1 < b.2.1 ∨ (a.2.1 = b.2.1 ∧ a.2.2 < b.2.2)))

/-- R54: a point within the run-in and run-out allowance of a slab. -/
def allowed (c : SlabContents) (q : Point) : Prop :=
  -200 ≤ q.x ∧ q.x ≤ c.width + 200 ∧ -200 ≤ q.y ∧ q.y ≤ c.height + 200

/-- R54: the first two demands on a segment: straight along its axis, and at least 1 mm long. -/
def straight (g : Segment) : Prop :=
  match g.kind with
  | .rip => g.start.y = g.stop.y ∧ g.start.x ≠ g.stop.x
  | .cross => g.start.x = g.stop.x ∧ g.start.y ≠ g.stop.y

/-- R54: a segment suits a slab. -/
def segmentSuits (c : SlabContents) (g : Segment) : Prop :=
  straight g ∧ allowed c g.start ∧ allowed c g.stop ∧ ∀ d ∈ g.depth, d ≤ c.thickness

/-- R55: a segment's kerf band and a rectangle have interiors that meet; half millimetres are counted by doubling. -/
def bandMeets (kerf : Nat) (g : Segment) (r : Rect) : Prop :=
  match g.kind with
  | .rip => min g.start.x g.stop.x < r.x + r.w ∧ (r.x : Int) < max g.start.x g.stop.x ∧
      2 * g.start.y - kerf < 2 * (r.y + r.h) ∧ (2 * r.y : Int) < 2 * g.start.y + kerf
  | .cross => 2 * g.start.x - kerf < 2 * (r.x + r.w) ∧ (2 * r.x : Int) < 2 * g.start.x + kerf ∧
      min g.start.y g.stop.y < r.y + r.h ∧ (r.y : Int) < max g.start.y g.stop.y

/-- R55: the lower-left corner of the part the band and a rectangle share, a half millimetre rounded down. -/
def bandCorner (kerf : Nat) (g : Segment) (r : Rect) : Point :=
  match g.kind with
  | .rip => ⟨max (min g.start.x g.stop.x) r.x, max ((2 * g.start.y - kerf) / 2) r.y⟩
  | .cross => ⟨max ((2 * g.start.x - kerf) / 2) r.x, max (min g.start.y g.stop.y) r.y⟩

/-- R51 to R56: what checks 1 to 8 ask of a plan. -/
def checkPasses (s : State) (p : Plan) (check : Nat) : Prop :=
  let cfg := s.settings.cfg
  let c := contentsOf s p.slab
  match check with
  | 1 => ∃ r, findSlab s p.slab = some r ∧ r.state ≠ .gone ∧ r.state ≠ .cutting
  | 2 => p.pieces ≠ [] ∧ p.segments ≠ []
  | 3 => ∀ e ∈ p.pieces, usable cfg c e.rect
  | 4 => ∀ r ∈ p.remnants, usable cfg c r
  | 5 => (itemsOf p).Pairwise (apart cfg.kerf)
  | 6 => ∀ g ∈ p.segments, segmentSuits c g
  | 7 => ∀ g ∈ p.segments, ∀ r ∈ itemsOf p, ¬ bandMeets cfg.kerf g r
  | 8 => ∀ g ∈ p.segments, g.piece < p.pieces.length
  | _ => True

/-- R51 to R56, R59: the rejection record of the check that fails: the first item in list order that fails it, with the
partner, coordinate and defect index its rule gives. -/
def rejectionFits (s : State) (p : Plan) (w : Rejection) : Prop :=
  let cfg := s.settings.cfg
  let c := contentsOf s p.slab
  let plain := w.partner = none ∧ w.coordinate = none ∧ w.defect = none
  match w.check with
  | 1 => w.item = .slab ∧ w.index = 0 ∧ plain
  | 2 => w.item = (if p.pieces = [] then .piece else .segment) ∧ w.index = 0 ∧ plain
  | 3 => w.item = .piece ∧ w.partner = none ∧ ∃ before e after at', p.pieces = before ++ e :: after ∧
      w.index = before.length ∧ (∀ b ∈ before, usable cfg c b.rect) ∧ w.coordinate = some at' ∧
      firstRegionFailure cfg c e.rect at' w.defect
  | 4 => w.item = .remnant ∧ w.partner = none ∧ ∃ before r after at', p.remnants = before ++ r :: after ∧
      w.index = before.length ∧ (∀ b ∈ before, usable cfg c b) ∧ w.coordinate = some at' ∧
      firstRegionFailure cfg c r at' w.defect
  | 5 => w.defect = none ∧ ∃ i j a b, i < j ∧ (itemsOf p)[i]? = some a ∧ (itemsOf p)[j]? = some b ∧
      ¬ apart cfg.kerf a b ∧
      (∀ i' j' a' b', i' < j' → (itemsOf p)[i']? = some a' → (itemsOf p)[j']? = some b' →
        turnBefore (pairTurn p i' j') (pairTurn p i j) → apart cfg.kerf a' b') ∧
      (w.item, w.index) = itemNamed p j ∧ w.partner = some (itemNamed p i) ∧
      w.coordinate = some ⟨max b.x (a.x - cfg.kerf), max b.y (a.y - cfg.kerf)⟩
  | 6 => w.item = .segment ∧ w.partner = none ∧ w.defect = none ∧ ∃ before g after, p.segments = before ++ g :: after ∧
      w.index = before.length ∧ (∀ b ∈ before, segmentSuits c b) ∧ ¬ segmentSuits c g ∧
      (straight g → allowed c g.start → ¬ allowed c g.stop → w.coordinate = some g.stop) ∧
      ((¬ straight g ∨ ¬ allowed c g.start ∨ allowed c g.stop) → w.coordinate = some g.start)
  | 7 => w.item = .segment ∧ w.defect = none ∧ ∃ before g after i r, p.segments = before ++ g :: after ∧
      w.index = before.length ∧ (∀ b ∈ before, ∀ q ∈ itemsOf p, ¬ bandMeets cfg.kerf b q) ∧
      (itemsOf p)[i]? = some r ∧ bandMeets cfg.kerf g r ∧
      (∀ k < i, ∀ q, (itemsOf p)[k]? = some q → ¬ bandMeets cfg.kerf g q) ∧
      w.partner = some (itemNamed p i) ∧ w.coordinate = some (bandCorner cfg.kerf g r)
  | 8 => w.item = .segment ∧ plain ∧ ∃ before g after, p.segments = before ++ g :: after ∧ w.index = before.length ∧
      (∀ b ∈ before, b.piece < p.pieces.length) ∧ p.pieces.length ≤ g.piece
  | _ => False

/-! ### What start-up recovers (11) -/

/-- R184: the good copies among the stored slab places before place `i` hold an id. -/
def slabBefore (stored : List (List Byte)) (i id : Nat) : Bool :=
  (stored.take i).any fun bs => goodCheck bs && (slabOfBytes bs).any (·.id == id)

/-- R184: the good copies among the stored job places before place `i` hold a number. -/
def jobBefore (stored : List (List Byte)) (i number : Nat) : Bool :=
  (stored.take i).any fun bs => goodCheck bs && (jobOfBytes bs).any (·.number == number)

/-- R184: stored slab place `i` is left out: its check is bad, or a lower place holds its id. -/
def slabLeftOut (stored : List (List Byte)) (i : Nat) : Bool :=
  let bs := stored.getD i []
  !goodCheck bs || (slabOfBytes bs).any fun r => slabBefore stored i r.id

/-- R183: the places the store controller has yet to write, the one going out first. -/
def toWrite (s : State) : List StorePlace := (s.store.inFlight.map (·.place)).toList ++ s.store.queue

/-! ### Layouts (12): a frame or a notice as the tables list its fields, each a width in bytes and a value -/

/-- 12: the bytes of a field, low byte first. -/
def fieldBytes (f : Nat × Nat) : List Byte := (List.range f.1).map fun i => BitVec.ofNat 8 (f.2 / 256 ^ i)

/-- 12: the bits of a field of so many bits, most significant first. -/
def bitsOf (width value : Nat) : List Bool := (List.range width).map fun i => value.testBit (width - 1 - i)

/-- 12: a signed two-byte field, two's complement. -/
def signedField (v : Int) : Nat × Nat := (2, (v % 65536).toNat)

/-- 12: a one-byte field, 0xFF when absent. -/
def indexField (o : Option Nat) : Nat × Nat := (1, o.getD 255)

/-- 12: a flag in a bit of its byte. -/
def flagAt (bit : Nat) (b : Bool) : Nat := if b then 2 ^ bit else 0

/-- 12: a defect of the slab contents: the kind in bit 15 of x. -/
def defectFields (d : Defect) : List (Nat × Nat) :=
  [(2, d.x % 32768 + (if d.kind = .fissure then 32768 else 0)), (2, d.y), (2, d.w), (2, d.h)]

/-- 12: the slab contents before the defects. -/
def contentsHead (id : Nat) (c : SlabContents) : List (Nat × Nat) :=
  [(2, id), (1, c.cls % 8 + c.defects.length % 8 * 16), (1, c.thickness), (2, c.width), (2, c.height), (2, c.price),
    (2, c.parent.getD 0)]

/-- R155, 12: a notice's kind and the fields of its body. -/
def noticeFields : Notice → Nat × List (Nat × Nat)
  | .poll resource => (1, [(2, resource)])
  | .claim resource job => (2, [(2, resource), (2, job)])
  | .release resource => (3, [(2, resource)])
  | .demand value => (4, [(1, value)])
  | .retire slab reason => (5, [(2, slab), (1, reason)])
  | .slab id c => (6, contentsHead id c ++ c.defects.flatMap defectFields)
  | .hello supply rate press => (7, [(2, supply), (1, rate), (1, press)])

/-- 12: a code is a place in the list the table or the rule gives, from 1. -/
def reasonCode (r : Reason) : Nat :=
  1 + [Reason.state, .range, .badFrame, .unknownSlab, .slabGone, .slabBusy, .heldElsewhere, .claimTableFull,
    .registerFull, .jobTableFull, .jobNotOpen, .jobInUse, .noPlan, .lineInert, .muted, .staleTag].idxOf r

/-- 12: the causes of a fault record, from 1. -/
def causeCode (c : Cause) : Nat :=
  1 + [Cause.bladeStall, .operatorStop, .axisLimit, .bladeBroken, .waterShort, .sumpFull, .machinePause, .doubleFault,
    .repeatedFault, .overrun, .hostAbort, .duplicateStation].idxOf c

/-- 12: the state of a slab record, as stored. -/
def slabStateCode (st : SlabState) : Nat := [SlabState.stock, .cutting, .cutOpen, .gone].idxOf st

/-- 12: an item kind, and a partner's; a partner that is absent has kind 0. -/
def itemCode (k : ItemKind) : Nat := [ItemKind.slab, .piece, .remnant, .segment, .job].idxOf k

/-- 12: the twelve bytes of a fault record. -/
def faultFields (r : FaultRecord) : List (Nat × Nat) :=
  [(1, if r.cls = .abort then 1 else 0), (1, causeCode r.cause), (1, r.prior.elim 0 causeCode), (2, r.plan),
    (1, r.segment), (1, if r.kind = .resume then 1 else 0), signedField r.reached.x, signedField r.reached.y,
    (1, if r.origin = .machine then 1 else 0)]

/-- 12: a trap's code and the fields after its segment index. -/
def trapFields : Trap → Nat × List (Nat × Nat)
  | .lengthMismatch tag reported ordered => (1, [(1, tag), (4, reported), (4, ordered)])
  | .freshUsed decilitres => (2, [(4, decilitres)])
  | .costOverEstimate actual estimated => (3, [(4, actual), (4, estimated)])
  | .unreportedPortion tag => (4, [(1, tag)])
  | .jobOverEstimate job estimate total => (5, [(2, job), (4, estimate), (4, total)])
  | .saturated job field => (6, [(2, job), (1, field)])
  | .purgeTimeout press snapshot volume => (7, [(1, press), (4, snapshot), (4, volume)])
  | .lineFault cause kind =>
      (8, [(1, 1 + [LineFaultCause.retriesExhausted, .stuckLine, .duplicateStation].idxOf cause), (1, kind)])
  | .lineBacklog kind => (9, [(1, kind)])
  | .configSkew station supply rate press => (10, [(1, station), (2, supply), (1, rate), (1, press)])
  | .registerDiscard slab => (11, [(2, slab)])

/-- 12: the result fields of an ACCEPTED reply. -/
def acceptedFields : Accepted → List (Nat × Nat)
  | .bare => []
  | .slabId id => [(2, id)]
  | .number n => [(1, n)]
  | .settlement first lines => (match first with
      | some count => [(1, 0), (1, count)]
      | none => [(1, 1)]) ++ lines.flatMap fun l => [(2, l.job), (4, l.area), (4, l.cents)]

/-- 12: the pending-cause set. -/
def pendingField (p : Pending) : Nat × Nat :=
  (1, flagAt 0 p.waterShort + flagAt 1 p.sumpFull + flagAt 2 p.bladeStall + flagAt 3 p.operatorStop +
    flagAt 4 p.machinePause)

/-- 12: an entry of a PEER VIEW. -/
def peerFields (e : PeerEntry) : List (Nat × Nat) :=
  let presence := if e.unused then 3 else [Presence.absent, .present, .lapsed].idxOf e.presence
  [(1, presence + flagAt 2 e.busy + flagAt 3 e.fingerprint.isSome), (1, e.demand), (2, e.heard.getD 65535)] ++
    match e.fingerprint with
    | some f => [(2, f.supply), (1, f.rate), (1, f.press)]
    | none => [(2, 0), (1, 0), (1, 0)]

/-- 12: a STATION VIEW. -/
def viewFields (v : StationView) : List (Nat × Nat) :=
  [indexField v.station, (1, [Attach.inert, .listening, .active, .muted].idxOf v.attach),
    (1, flagAt 0 v.clamped + flagAt 1 v.degraded + flagAt 2 v.overflow), (1, v.leftOut), (1, v.damaged),
    (1, flagAt 0 v.sumpDefault + flagAt 1 v.serialDefault), (2, v.storeFaults), (4, v.idleRecycled), (4, v.idleFresh),
    (4, v.volume), (1, [PurgeState.idle, .wantPress, .purging, .retryWait].idxOf v.purge)] ++
  [v.dropped, v.truncated, v.checkErrors, v.formatErrors, v.lostNotices, v.lineFaults, v.retryDrops, v.backlogDrops,
    v.conflicts, v.discarded, v.refused].map fun count => (2, count)

/-- 12: each report frame's kind and the fields of its body. A rejection record's partner index, x and y are 0 where it has
no partner or no coordinate (log entry 53). -/
def reportFields : Report → Nat × List (Nat × Nat)
  | .accepted command fields => (0x41, (1, command) :: acceptedFields fields)
  | .refused command reason => (0x42, [(1, command), (1, reasonCode reason)])
  | .slabRecordHead r => (0x43, (1, 0) :: contentsHead r.id r.contents ++
      [(1, slabStateCode r.state), indexField r.holder, (4, r.heard)])
  | .slabRecordTail id defects => (0x43, [(1, 1), (2, id)] ++ defects.flatMap defectFields)
  | .slabList entries more => (0x44, [(1, entries.length), (1, flagAt 0 more)] ++
      entries.flatMap fun e => [(2, e.1), (1, slabStateCode e.2)])
  | .claimResult slab job result station polls => (0x45, [(2, slab), (2, job),
      (1, [ClaimResult.granted, .heldElsewhere, .claimLost, .lineNoisy, .muted].idxOf result), indexField station,
      (1, polls)])
  | .planValid plan e => (0x46, [(1, 0), (2, plan), (1, 0), (1, e.lines.length), (4, e.time), (4, e.water), (4, e.wear),
      (4, e.solids), (4, e.total)])
  | .planLine plan l => (0x46, [(1, 1), (2, plan), (2, l.job), (4, l.machine), (4, l.water), (4, l.wear),
      (4, l.disposal), (4, l.material)])
  | .planRejected plan w => (0x46, [(1, 0), (2, plan), (1, 1), (1, w.check), (1, itemCode w.item), (1, w.index)] ++
      (match w.partner with
        | some q => [(1, itemCode q.1), (1, q.2)]
        | none => [(1, 0), (1, 0)]) ++
      (match w.coordinate with
        | some q => [(1, 1), signedField q.x, signedField q.y]
        | none => [(1, 0), (2, 0), (2, 0)]) ++ [indexField w.defect])
  | .planStale plan slab cause => (0x47, [(2, plan), (2, slab), (1, if cause = .gone then 1 else 0)])
  | .segmentOrder o bevel => (0x48, [(1, o.tag), (1, o.segment), (1, if o.kind = .resume then 1 else 0),
      signedField o.start.x, signedField o.start.y, signedField o.stop.x, signedField o.stop.y, (1, o.depth),
      (1, if bevel then 45 else 0), (2, o.feed), (1, o.water), (2, o.expected)])
  | .feedUpdate tag segment feed water => (0x49, [(1, tag), (1, segment), (2, feed), (2, water)])
  | .holdOrder tag segment => (0x4A, [(1, tag), (1, segment)])
  | .stopOrder tag segment => (0x4B, [(1, tag), (1, segment)])
  | .planComplete plan slab remnants actual lines => (0x4C, [(1, 0), (2, plan), (2, slab), (1, remnants.length)] ++
      remnants.map (fun id => (2, id)) ++ [(4, actual), (1, lines)])
  | .completeLine plan l => (0x4C, [(1, 1), (2, plan), (2, l.job), (4, l.area), (4, l.cents)])
  | .planAborted r nextSeg charged actual => (0x4D, faultFields r ++ [(1, nextSeg), (1, charged), (4, actual)])
  | .trap what plan segment =>
      (0x4E, [(1, (trapFields what).1), (2, plan), indexField segment] ++ (trapFields what).2)
  | .fault r pending => (0x4F, faultFields r ++ [pendingField pending])
  | .jobHead j => (0x50, [(1, 0), (2, j.number), (1, flagAt 0 j.closed),
      (1, flagAt 0 j.estimate.isSome + flagAt 1 j.overEstimate + flagAt 2 j.saturated + flagAt 3 j.damaged),
      (1, j.inUse), (4, j.estimate.getD 0), (4, j.segments), (4, j.inStone), (4, j.time), (4, j.recycled), (4, j.fresh),
      (4, j.wear), (4, j.solids)])
  | .jobTail j => (0x50, [(1, 1), (2, j.number), (4, j.area), (4, j.machine), (4, j.water), (4, j.wearCents),
      (4, j.disposal), (4, j.material), (4, j.total)])
  | .purgeReport press purged volume tenths => (0x51, [(1, press), (4, purged), (4, volume), (4, tenths)])
  | .peerView first entries => (0x52, [(1, first), (1, entries.length)] ++ entries.flatMap peerFields)
  | .stationView v => (0x53, viewFields v)

/-! ### What a command finds -/

/-- R170, R171: a command stands at the head of the inbound queue. -/
abbrev atHead (straps : Nat) (c : Instr) (s : State) : Prop :=
  s.host.inbound.head?.bind (inboundCommand straps) = some c

/-- R171: at least 4 frames and 248 bytes of general room. -/
abbrev roomToAnswer (s : State) : Prop := s.host.outbound.length ≤ 14 ∧ heldBytes s.host.outbound ≤ 424

/-- R171: a command may be taken. -/
abbrev ready (c : Instr) (s : State) : Prop := atHead 0 c s ∧ roomToAnswer s

/-- The station that sent a notice the part has heard. -/
def sender : Instr → Option Nat
  | .pollReceived k _ => some k
  | .claimReceived k _ _ => some k
  | .releaseReceived k _ => some k
  | .demandReceived k _ => some k
  | .retireReceived k _ _ => some k
  | .slabReceived k _ _ => some k
  | .helloReceived k _ _ _ => some k
  | _ => none

/-- R154, R155: the precedence field of a notice the part has heard, its kind and its sender. -/
def heardPrecedence : Instr → Nat
  | .pollReceived k _ => 1 * 32 + k
  | .claimReceived k _ _ => 2 * 32 + k
  | .releaseReceived k _ => 3 * 32 + k
  | .demandReceived k _ => 4 * 32 + k
  | .retireReceived k _ _ => 5 * 32 + k
  | .slabReceived k _ _ => 6 * 32 + k
  | .helloReceived k _ _ _ => 7 * 32 + k
  | _ => 0

/-- R154, R158: what the part has put on the line once the notice it was sending has lost it to the precedence `won`: the
start bit and its precedence bits through the first at which it is recessive and the winner dominant. -/
def lineAfterLoss (won : Nat) (s : State) : List Bool :=
  match s.floor.queue.find? (·.sending) with
  | none => s.floor.lineOut
  | some e =>
      match (List.range 9).find? fun i => (e.notice.kind * 32 + s.own).testBit (8 - i) && !won.testBit (8 - i) with
      | none => s.floor.lineOut
      | some i => s.floor.lineOut.take (1 + (i + 1))

/-- Whether a command is one of the two resets. -/
def isReset : Instr → Bool
  | .pinReset _ => true
  | .restart _ => true
  | _ => false

/-! ### The order of a command's checks: each table as its rule gives it, a row's condition with its refusal -/

/-- R18. -/
def enterSlabTable (contents : SlabContents) (s : State) : List (Bool × Reason) :=
  [(s.station.number.isNone, .state), (!contentsInRange 1 contents, .range), ((makeRoom s).isNone, .registerFull)]

/-- R25. -/
def takeTable (slab job : Nat) (s : State) : List (Bool × Reason) :=
  let state := (findSlab s slab).map (·.state)
  [(!isSlabId slab || job == 0 || decide (65535 < job), .range), (state == none, .unknownSlab),
    (state == some .gone, .slabGone), (state == some .cutting, .slabBusy), (s.floor.attach == .muted, .muted),
    (s.floor.attach != .active, .lineInert), ((claimOn s slab).isSome, .state),
    (decide (8 ≤ s.claims.entries.length), .claimTableFull)]

/-- R36. -/
def giveTable (slab : Nat) (s : State) : List (Bool × Reason) :=
  let cutting : List ActiveState := [.running, .paused, .ending, .aborted]
  [(!isSlabId slab, .range), (decide (s.active.state ∈ cutting) && s.active.plan.slab == slab, .slabBusy),
    ((claimOn s slab).all (·.stage != .held), .state)]

/-- R64. -/
def startPlanTable (s : State) : List (Bool × Reason) :=
  let slab := s.staged.plan?.elim 0 (·.slab)
  let valid := s.staged.plan?.any fun p => s.staged == .valid p
  [(s.floor.attach == .muted, .muted), (s.floor.attach != .active, .lineInert),
    (s.active.state != .empty && s.active.state != .done, .state), (!valid, .state),
    ((findSlab s slab).all (·.state != .stock), .slabBusy), ((claimOn s slab).all (·.stage != .held), .heldElsewhere)]

/-- R93: whether the active slot is ABORTED on a slab. -/
def abortedHere (slab : Nat) (s : State) : Bool := s.active.state == .aborted && s.active.plan.slab == slab

/-- R93. -/
def closeSlabTable (slab mode job : Nat) (s : State) : List (Bool × Reason) :=
  let state := (findSlab s slab).map (·.state)
  let alone := mode == 0 && !abortedHere slab s
  [(!isSlabId slab || decide (1 < mode), .range), (state == none, .unknownSlab), (state == some .gone, .slabGone),
    (state != some .cutOpen, .state), ((claimOn s slab).all (·.stage != .held), .heldElsewhere),
    (alone && job == 0, .range), (alone && !(findJob s job).any (!·.closed), .jobNotOpen)]

/-- R138. -/
def openJobTable (job : Nat) (s : State) : List (Bool × Reason) :=
  [(job == 0 || decide (65535 < job), .range), ((findJob s job).isSome, .state), (s.jobs.all (·.isSome), .jobTableFull)]

/-- R140. -/
def closeJobTable (job : Nat) (s : State) : List (Bool × Reason) :=
  [(job == 0 || decide (65535 < job), .range), ((findJob s job).all (·.closed), .jobNotOpen),
    ((findJob s job).any fun j => decide (0 < j.inUse), .jobInUse)]

/-- R140. -/
def freeJobTable (job : Nat) (s : State) : List (Bool × Reason) :=
  [(job == 0, .range), ((findJob s job).isNone, .jobNotOpen), ((findJob s job).any (!·.closed), .state)]

/-- R134. -/
def purgeNowTable (s : State) : List (Bool × Reason) :=
  [(s.floor.attach == .muted, .muted), (s.floor.attach != .active, .lineInert),
    (s.sump.state == .wantPress || s.sump.state == .purging, .state), (s.sump.volume == 0, .state)]

/-- R180. -/
def setStationTable (first second number : Nat) (s : State) : List (Bool × Reason) :=
  [(first != 0xA6 || second != 0x3C || decide (30 < number), .range), (s.floor.attach != .inert, .state),
    (decide (s.station.straps ≤ 30), .state), (s.station.setNumber.isSome, .state)]

/-! ### What a command leaves -/

/-- R171: the command has left the inbound queue, its size noted, and its reply stands at the tail of the outbound queue. -/
def answered (r : Report) (s : State) : State :=
  { s with host := { s.host with
      inbound := s.host.inbound.tail, outbound := s.host.outbound ++ [⟨r, false⟩]
      taken := (s.host.inbound.take 1).map inboundSize ++ s.host.taken } }

/-- R171: answered ACCEPTED with no result fields. -/
abbrev acceptedBy (command : Nat) (s : State) : State := answered (.accepted command .bare) s

/-- R171: answered REFUSED; a refused command changes nothing else. -/
abbrev refusedBy (command : Nat) (why : Reason) (s : State) : State := answered (.refused command why) s

/-- R161: a notice handed to a transmit queue that has room stands in its place there. -/
def handed (n : Notice) (owner : Option Nat) (s : State) : State :=
  { s with floor := { s.floor with
      queue := insertTx ⟨n, owner, 0, s.floor.nextAge, false, false⟩ s.floor.queue, nextAge := s.floor.nextAge + 1 } }

end Sys2Proof.Safety
end

