-- ==== Sys2Proof/Certificates/Slice0/Obligations.lean ====
section
/-! DEFINITION. The statements about the machine. Each docstring names the rules it formalises; where a statement rests on
a choice of the model it names the log entry. -/

open Sys2Proof Sys2Proof.Machine Sys2Proof.Safety

/-! ### The queue of commands -/

/-- A step takes the command at the front of the queue and runs exec on the state with the queue's rest. -/
def Obligations.StepRunsTheFrontCommand : Prop :=
  ∀ (s : State) (c : Instr) (rest : List Instr), s.pending = c :: rest → step s = exec c { s with pending := rest }

/-- Every command, in every state, goes on to a next state, and no command touches the queue of waiting commands. Both are
the model's choice: 95 gives a command where it comes about, and that it goes on where it cannot is log entry 4 (and 8 for a
command not at the head); the queue of waiting commands is the model's own. -/
def Obligations.EveryCommandGoesOn : Prop :=
  ∀ (c : Instr) (s : State), ∃ t, exec c s = .next t ∧ t.pending = s.pending

/-! ### Layouts (12) -/

/-- R170, 12: the frame that spells a well-formed host command is within a frame's limits and decodes to it (the
straps are no part of a RESTART frame); and a frame that decodes to a command is the one frame that spells it. -/
def Obligations.HostCommandRoundTrip : Prop :=
  (∀ (c : Instr) (kind : Nat) (body : List Byte), c.wellFormed = true → encodeCommand c = some (kind, body) →
    isCommandKind kind = true ∧ body.length ≤ 60 ∧
    ∀ straps, decodeCommand straps kind body =
      some (match c with
        | .restart _ => .restart straps
        | d => d)) ∧
  (∀ (straps kind : Nat) (body : List Byte) (c : Instr), decodeCommand straps kind body = some c →
    encodeCommand c = some (kind, body))

/-- R154, R155, R186, 12: a notice put on the line, with its check, is read off it as the same notice. A notice this station
sends has the kind and the body 12 gives it, and its bits from the start bit through the check are 12's: kind, station and
length, most significant first, the body's bytes likewise, and the cyclic check of what stands before it. -/
def Obligations.NoticeRoundTrip : Prop :=
  (∀ (c : Instr) (n : RawNotice), c.wellFormed = true → encodeNotice c = some n → decodeNotice n = c) ∧
  (∀ (station : Nat) (n : Notice), station ≤ 30 → n.body.length ≤ 127 →
    let covered := bitsOf 4 (noticeFields n).1 ++ bitsOf 5 station ++ bitsOf 7 n.body.length ++
      n.body.flatMap fun b => bitsOf 8 b.toNat
    let check := covered.foldl (fun (r : BitVec 16) bit => if r.msb = bit then r <<< 1 else r <<< 1 ^^^ 0x1021#16)
      0xFFFF#16
    n.kind = (noticeFields n).1 ∧ n.body = (noticeFields n).2.flatMap fieldBytes ∧
      n.lineBits station = false :: (covered ++ bitsOf 16 check.toNat))

/-- R21, R150, R184, R186, 12: a stored record comes back with a good check, its contents and its state; the holder,
the heard order and the in-use count do not. -/
def Obligations.StoredRecordsComeBack : Prop :=
  (∀ r : SlabRecord, isSlabId r.id = true → contentsInRange 0 r.contents = true →
    (slabPlaceBytes (some r)).length = 63 ∧ goodCheck (slabPlaceBytes (some r)) = true ∧
    slabOfBytes (slabPlaceBytes (some r)) = some { r with holder := none, heard := 0 }) ∧
  (∀ j : JobRecord, isJobNumber j.number = true → (∀ n ∈ j.counts, n ≤ max32) → (∀ e ∈ j.estimate, e ≤ max32) →
    (jobPlaceBytes (some j)).length = 65 ∧ goodCheck (jobPlaceBytes (some j)) = true ∧
    jobOfBytes (jobPlaceBytes (some j)) = some { j with inUse := 0 }) ∧
  (goodCheck (slabPlaceBytes none) = true ∧ slabOfBytes (slabPlaceBytes none) = none) ∧
  (goodCheck (jobPlaceBytes none) = true ∧ jobOfBytes (jobPlaceBytes none) = none)

/-- R181, R182, R186: a configuration block and a calibration region as WRITE CONFIG and WRITE CALIBRATION have them
written are read at start-up field by field, each held within the range R181 gives it (fresh makeup's 0..1 is log entry
37); CONFIG DEGRADED stays clear, and CONFIG CLAMPED is set just when a value was outside its range. Whatever bytes the
block and the region hold, every setting in force lies within its range; the line rate and S are taken as two or three of
their copies have them, 125 kbit/s and 10 where all three differ; CONFIG DEGRADED is set just when all three copies of one
differ or a check fails, and a block or region whose check fails is read as it stands. -/
def Obligations.WrittenSettingsAreReadClamped : Prop :=
  (∀ (c : ConfigFields) (kr kf : Nat), c.wellFormed = true → kr < 256 → kf < 256 →
    let t := settingsOf (configPlaceBytes c) (calibrationPlaceBytes (kr, kf))
    t = { cfg := configClamped c, kRecycled := clampTo 10 250 kr, kFresh := clampTo 10 250 kf
          clamped := configClamped c != c || clampTo 10 250 kr != kr || clampTo 10 250 kf != kf
          degraded := false } ∧
    fieldsHeld c t.cfg ∧ heldWithin 10 250 kr t.kRecycled ∧ heldWithin 10 250 kf t.kFresh) ∧
  (∀ config calibration : List Byte, settingsInRange (settingsOf config calibration)) ∧
  (∀ config calibration : List Byte,
    let t := settingsOf config calibration
    let rate (i : Nat) : Nat := byteAt config i
    let supply (i : Nat) : Nat := u16At config (3 + 2 * i)
    let taken (copy : Nat → Nat) (v : Nat) : Prop := ∃ i j, i < j ∧ j < 3 ∧ copy i = v ∧ copy j = v
    let differ (copy : Nat → Nat) : Prop := copy 0 ≠ copy 1 ∧ copy 0 ≠ copy 2 ∧ copy 1 ≠ copy 2
    (∀ v, taken rate v → heldWithin 0 2 v t.cfg.rate) ∧ (differ rate → t.cfg.rate = 0) ∧
    (∀ v, taken supply v → heldWithin 10 2000 v t.cfg.supply) ∧ (differ supply → t.cfg.supply = 10) ∧
    (t.degraded = true ↔
      differ rate ∨ differ supply ∨ goodCheck config = false ∨ goodCheck calibration = false) ∧
    ∀ block region : List Byte, block.take 52 = config.take 52 → region.take 2 = calibration.take 2 →
      settingsOf block region = { t with degraded := (settingsOf block region).degraded })

/-! ### What every step keeps -/

/-- R161, R169, R172, R71, R113: every step keeps the outbound, inbound and transmit queues within their limits; at most
the SEGMENT ORDER of the order in flight and one update frame for it unread (with what O11 keeps); and the transmit queue
in order of kind and then of age, with at most one entry being sent and at most one DEMAND waiting. Ages are the model's
own. -/
def Obligations.StepKeepsQueueLimits : Prop :=
  (∀ s t : State, queuesBounded s → step s = .next t → queuesBounded t) ∧
  (∀ s t : State, orderFits s → orderFramesWait s → step s = .next t → orderFramesWait t) ∧
  (∀ s t : State, transmitOrdered s → step s = .next t → transmitOrdered t)

/-- R2, R3, R9, R137, R164, R186: every step keeps the number of places of each table, the register to at most one
record for any id, and the occupied records and the reservations together within 64. R137, R141, R146: and job numbers
distinct, a record in use OPEN, every count within 32 bits, every total the saturated sum of its components. -/
def Obligations.StepKeepsTheTablesSound : Prop :=
  (∀ s t : State, tablesSized s → slabsDistinct s → placesWithin s → step s = .next t →
    tablesSized t ∧ slabsDistinct t ∧ placesWithin t) ∧
  (∀ s t : State, jobsSound s → step s = .next t → jobsSound t)

/-- R22: every step keeps the claim table to eight entries, no two for one resource. The handles that tell entries
apart are the model's own (log entry 18). -/
def Obligations.StepKeepsClaimTable : Prop := ∀ s t : State, claimsSound s → step s = .next t → claimsSound t

/-- R183: every step keeps each stored place to at most one pending entry. -/
def Obligations.StepKeepsOneWriteAPlace : Prop := ∀ s t : State, writesDistinct s → step s = .next t → writesDistinct t

/-- R67, R70, R74, R75, R86 to R91: every step keeps the order in flight, its timers and the state of the active slot
together: an order not stopped in RUNNING, a stopped one in ENDING, none in EMPTY, PAUSED or DONE. R65, R67, R81: and a
plan RUNNING, PAUSED or ENDING only on an ACTIVE line, its slab CUTTING and its claim HELD, PAUSED only with a cause
pending (with what O8 and O9 keep of the tables). -/
def Obligations.StepKeepsOrderWithItsPlan : Prop :=
  (∀ s t : State, orderFits s → step s = .next t → orderFits t) ∧
  (∀ s t : State, tablesSized s → slabsDistinct s → claimsSound s → planHolds s → step s = .next t → planHolds t)

/-- The model's choice of reset state (log entries 1, 2, 3) meets what every step keeps. -/
def Obligations.ResetMeetsWhatEveryStepKeeps : Prop :=
  queuesBounded State.reset ∧ orderFramesWait State.reset ∧ transmitOrdered State.reset ∧ tablesSized State.reset ∧
    slabsDistinct State.reset ∧ placesWithin State.reset ∧ jobsSound State.reset ∧ claimsSound State.reset ∧
    writesDistinct State.reset ∧ orderFits State.reset ∧ planHolds State.reset ∧ drivesInStep State.reset

/-- R163, R166, R41: a station muted and silent stays so under every command but a reset, puts no bits on the line and
drives no slot. R156, R163: every step keeps that slots are driven by a receiver in step alone, and in ACTIVE alone. -/
def Obligations.MutedStationStaysSilent : Prop :=
  (∀ (c : Instr) (s t : State), mutedAndSilent s → isReset c = false → exec c s = .next t →
    mutedAndSilent t ∧ t.floor.lineOut = s.floor.lineOut ∧ (t.floor.drive = s.floor.drive ∨ t.floor.drive = none)) ∧
  (∀ s t : State, drivesInStep s → step s = .next t → drivesInStep t)

/-- R163, R166, R179: the attach state moves only so: a reset to INERT, JOIN from INERT to LISTENING, the listen-in's
end from LISTENING to ACTIVE, a notice bearing the station's own number from LISTENING or ACTIVE to MUTED. -/
def Obligations.AttachStateMovesOnlySo : Prop :=
  ∀ (c : Instr) (s t : State), exec c s = .next t →
    t.floor.attach = s.floor.attach ∨
    (isReset c = true ∧ t.floor.attach = .inert) ∨
    (c = .join ∧ s.floor.attach = .inert ∧ t.floor.attach = .listening) ∨
    (c = .listenInExpiry ∧ s.floor.attach = .listening ∧ t.floor.attach = .active) ∨
    (sender c = s.station.number ∧ s.station.number.isSome = true ∧
      (s.floor.attach = .listening ∨ s.floor.attach = .active) ∧ t.floor.attach = .muted)

/-- R68: no command but a reset sets the order tag back, and none issues more than one order. Either the tag stays, and an
order in flight is the one there was, by tag, segment and start; or it advances by one, from 255 to 0, and the order in
flight carries it. -/
def Obligations.TagAdvancesOnceAnOrder : Prop :=
  ∀ (c : Instr) (s t : State), isReset c = false → exec c s = .next t →
    (t.active.tag = s.active.tag ∧ ∀ o, t.active.order = some o →
      ∃ p, s.active.order = some p ∧ o.tag = p.tag ∧ o.segment = p.segment ∧ o.start = p.start) ∨
    (t.active.tag = (s.active.tag + 1) % 256 ∧ ∃ o, t.active.order = some o ∧ o.tag = t.active.tag)

/-! ### The segment charge (05) and the water share (06) -/

/-- R98: the base feed is the quotient rounded down, clamped to Fmin..Fmax: below Fmin it becomes Fmin, above Fmax
Fmax. It is F0 at a 20 mm depth in stone of hardness 100; the divisor is at least 50, and the quotient runs from 26 to
240,000. -/
def Obligations.BaseFeedIsClampedQuotient : Prop :=
  ∀ (cfg : ConfigFields) (depth cls : Nat), cfg.fmin ≤ cfg.fmax → 1 ≤ depth → depth ≤ 92 →
    50 ≤ hardnessOf cfg cls → hardnessOf cfg cls ≤ 250 →
    50 ≤ depth * hardnessOf cfg cls ∧
    ∃ q, q * (depth * hardnessOf cfg cls) ≤ cfg.f0 * 2000 ∧ cfg.f0 * 2000 < (q + 1) * (depth * hardnessOf cfg cls) ∧
      (q < cfg.fmin → baseFeed cfg depth cls = cfg.fmin) ∧ (cfg.fmax < q → baseFeed cfg depth cls = cfg.fmax) ∧
      (cfg.fmin ≤ q → q ≤ cfg.fmax → baseFeed cfg depth cls = q) ∧
      (depth = 20 → hardnessOf cfg cls = 100 → q = cfg.f0) ∧
      (300 ≤ cfg.f0 → cfg.f0 ≤ 6000 → 26 ≤ q ∧ q ≤ 240000)

/-- R99: at or above Qnom the feed is Fb; from Qmin up it is the scaled feed, rounded down and raised to Fmin; below
Qmin the answer is HOLD. Every feed given lies within Fmin..Fmax and never exceeds Fb. -/
def Obligations.FeedFollowsEffectiveWater : Prop :=
  ∀ (cfg : ConfigFields) (base e : Nat), cfg.qmin ≤ cfg.qnom → cfg.fmin ≤ base → base ≤ cfg.fmax →
    (cfg.qnom ≤ e → feedLimit cfg base e = some base) ∧
    (cfg.qmin ≤ e → e < cfg.qnom → ∃ q, q * cfg.qnom ≤ base * e ∧ base * e < (q + 1) * cfg.qnom ∧
      feedLimit cfg base e = some (if q < cfg.fmin then cfg.fmin else q)) ∧
    (e < cfg.qmin → feedLimit cfg base e = none) ∧
    (∀ f, feedLimit cfg base e = some f → cfg.fmin ≤ f ∧ f ≤ cfg.fmax ∧ f ≤ base)

/-- R102: the wear is the least number of units that covers La_in × De × hardness at 100,000 a unit; 0 for a portion
with no stone; a metre of a 20 mm cut at hardness 100 costs 20. -/
def Obligations.WearRoundsUpTheCut : Prop :=
  (∀ (cfg : ConfigFields) (cls inStone depth : Nat),
    IsLeast { u : Nat | inStone * depth * hardnessOf cfg cls ≤ u * 100000 } (wearUnits cfg cls inStone depth)) ∧
  (∀ (cfg : ConfigFields) (cls depth : Nat), wearUnits cfg cls 0 depth = 0) ∧
  (∀ (cfg : ConfigFields) (cls : Nat), hardnessOf cfg cls = 100 → wearUnits cfg cls 1000 20 = 20)

/-- R115: the allotment by its three cases, from the own demand, Σ and S, Σ being the own demand and the last demands
of every PRESENT and LAPSED peer, at most 7770. It never exceeds the own demand nor S, and the allotments of stations
that see the same demands and use the same S come to at most S. -/
def Obligations.AllotmentSharesTheSupply : Prop :=
  (∀ (s : State), s.peers.length = 31 → s.water.own ≤ 120 → (∀ p ∈ s.peers, p.demand ≤ 255) →
    (∃ k < 31, s.station.number = some k) →
    (waterFigures s).sigma =
      s.water.own + ((List.range 31).map fun k =>
        if s.station.number = some k ∨ (peerOf s k).presence = .absent then 0 else (peerOf s k).demand).sum ∧
    (waterFigures s).sigma ≤ 7770 ∧
    (waterFigures s).allotment = allotmentOf s.water.own (waterFigures s).sigma s.settings.cfg.supply ∧
    (recomputeWater s).water.allotment = (waterFigures s).allotment) ∧
  (∀ own sigma supply : Nat, own ≤ sigma →
    (own = 0 → allotmentOf own sigma supply = 0) ∧
    (sigma ≤ supply → allotmentOf own sigma supply = own) ∧
    (own ≠ 0 → supply < sigma → ∃ a, allotmentOf own sigma supply = a ∧ a * sigma ≤ own * supply ∧
      own * supply < (a + 1) * sigma) ∧
    allotmentOf own sigma supply ≤ own ∧ allotmentOf own sigma supply ≤ supply) ∧
  (∀ (demands : List Nat) (supply : Nat), (demands.map fun d => allotmentOf d demands.sum supply).sum ≤ supply)

/-- R116: the fresh draw is the lower of the shortfall and the fresh limit with makeup enabled, 0 with it disabled, 0
when the own demand is 0, and 0 when the limit is 0; it is worked in the same step as A. -/
def Obligations.FreshDrawMakesUpTheShortfall : Prop :=
  (∀ (cfg : ConfigFields) (own a : Nat),
    (cfg.makeup ≠ 0 → freshDraw cfg own a = min (own - a) cfg.freshLimit) ∧
    (cfg.makeup = 0 → freshDraw cfg own a = 0) ∧
    freshDraw cfg own a ≤ cfg.freshLimit ∧ freshDraw cfg own a ≤ own - a ∧
    (own = 0 → freshDraw cfg own a = 0) ∧ (cfg.freshLimit = 0 → freshDraw cfg own a = 0)) ∧
  (∀ s : State, (recomputeWater s).water.fresh =
    freshDraw s.settings.cfg s.water.own (recomputeWater s).water.allotment)

/-- R107, R108, R109: where pieces and remnants fit the outline, the jobs' area shares and the remnant area add up to
the outline exactly; each share is the job's piece area and its rounded-down part of the waste, the residue, less than
the number of jobs when some piece has area, going to the first job of the largest piece area; the cents are each
share times the price, rounded up. -/
def Obligations.AreaSharesAddUpToTheSlab : Prop :=
  ∀ (c : SlabContents) (pieces : List PieceEntry) (remnant : Nat), pieces ≠ [] →
    ((distinctJobs pieces).map (jobArea pieces)).sum + remnant ≤ areaOf c.width c.height →
    let jobs := distinctJobs pieces
    let total := (jobs.map (jobArea pieces)).sum
    let waste := areaOf c.width c.height - total - remnant
    let lines := apportion c pieces remnant
    lines.map (·.job) = jobs ∧
    (lines.map (·.area)).sum + remnant = areaOf c.width c.height ∧
    (∀ l ∈ lines, IsLeast { n : Nat | l.area * c.price ≤ n * 10000 } l.cents) ∧
    ∃ big residue, big ∈ jobs ∧
      (∀ j ∈ jobs, jobArea pieces j ≤ jobArea pieces big ∧
        (jobArea pieces j = jobArea pieces big → jobs.idxOf big ≤ jobs.idxOf j)) ∧
      (0 < total → residue < jobs.length) ∧ (total = 0 → residue = waste) ∧
      ∀ l ∈ lines, l.area = jobArea pieces l.job + waste * jobArea pieces l.job / total +
        (if l.job = big then residue else 0)

/-! ### Resets and the host link (10, 11) -/

/-- R179, R176, R167, R164, R21, R22, R66, R67, R95, R125, R128, R180, R183, R184: a pin reset, and a RESTART as it is
taken, leave every block at the values its chapter gives for either reset, the register, the cost table, the sump account,
the serial counter and the recovery status being what start-up recovers (O23 says of it what); RESTART alone keeps the
number set by SET STATION. The write queue then holds what recovery queues, in an order the model chose across the blocks
(log entry 38), the first of it going out at once (log entry 14). The operands carry what the straps read (log entry 11). A write in flight leaves its place as log entry 12 says, but
the configuration block and the calibration region the old one (R182). The fields of the model's own (ages, bits on the line,
the blank plan, the record of sizes taken) stand at 0 or empty. A transaction open at a reset is spent, and shifts
out filler (log entry 44). -/
def Obligations.ResetsLeaveEveryBlockAtItsValues : Prop :=
  ∀ (c : Instr) (straps : Nat) (s : State),
    (c = .pinReset straps ∨ (c = .restart straps ∧ atHead straps (.restart straps) s ∧ roomToAnswer s)) →
    let st := abandonWrite s
    let slabs := recoverSlabs st.slabs
    let jobs := recoverJobs st.jobs
    (s.store.inFlight = none → st = s.store) ∧
    (∀ w, s.store.inFlight = some w →
      (w.place = .config ∨ w.place = .calibration → st = s.store) ∧
      (w.place ≠ .config → w.place ≠ .calibration → st = s.store.leave s.freeUses w)) ∧
    ∃ t : State, exec c s = .next t ∧
      t.pending = s.pending ∧
      t.station = ⟨straps, if c = .pinReset straps then none else s.station.setNumber⟩ ∧
      t.settings = settingsOf st.config st.calibration ∧
      t.host = {
        startingUp := true, phase := if s.host.phase = .idle then .idle else .spent, inbound := [], outbound := []
        overflow := false, dropped := 0, truncated := 0, emptyRead := false, taken := []
        shiftOut := if s.host.phase = .idle then [] else [0xFF#8] } ∧
      t.attentionLow = false ∧
      t.floor = {
        attach := .inert, inStep := false, listenIn := none, queue := [], nextAge := 0, window := none, drive := none
        lineOut := [], checkErrors := 0, formatErrors := 0, lostNotices := 0, lineFaults := 0, retryDrops := 0
        backlogDrops := 0 } ∧
      t.peers = List.replicate 31 { presence := .absent, demand := 0, heard := none, fingerprint := none, busy := false } ∧
      t.register = {
        places := slabs.places, serial := recoverSerial st.serial, heard := 0, reservations := 0, discarded := 0
        refused := 0, sweep := none } ∧
      t.claims.entries = [] ∧ t.claims.conflicts = 0 ∧ t.staged = .empty ∧
      t.active = {
        state := .empty, order := none, resume := none, tag := 0, actual := 0, overrun := none, stopWait := none
        plan := {
          number := 0, slab := 0, pieces := [], remnants := [], segments := [], estimate := none, reservations := 0 }
        pending := {
          waterShort := false, sumpFull := false, bladeStall := false, operatorStop := false, machinePause := false }
        fault := none, nextSeg := 0, faultCounts := [], charged := [] } ∧
      t.charge = ⟨0, 0⟩ ∧
      t.water = {
        own := 0, sigma := 0, allotment := 0, fresh := 0, effective := 0, segRecycled := 0, segFresh := 0
        idleRecycled := 0, idleFresh := 0, dwell := none, refresh := none } ∧
      t.recycledValve = false ∧ t.freshValve = false ∧ t.purgeValve = false ∧
      t.sump = ⟨recoverVolume st.sump, .idle, 0, none, none⟩ ∧
      t.jobs = jobs.places ∧
      t.store = { st with
        queue := t.store.queue, inFlight := t.store.inFlight, newConfig := none, newCalibration := none
        leftOut := slabs.count, damaged := jobs.count
        sumpDefault := !goodCheck st.sump, serialDefault := !goodCheck st.serial, faults := 0 } ∧
      toWrite t = slabs.writes ++ jobs.writes ++ (if goodCheck st.sump then [] else [.sump]) ++
        (if goodCheck st.serial then [] else [.serial]) ∧
      (t.store.inFlight = none ↔ toWrite t = []) ∧
      (∀ w, t.store.inFlight = some w → w.bytes = placeBytes t w.place ∧ w.timer = 5) ∧
      t.freeUses = s.freeUses + (if s.store.inFlight.isSome then 1 else 0)

/-- R21, R137, R150, R151, R183, R184: what start-up recovers after either reset, `st` being the store as the write in
flight left it. No record is CUTTING, a stored CUTTING comes back CUT OPEN; every holder is absent, every heard order and
every in-use count 0. A good copy whose id no lower place holds comes back in the place of the same number with its
contents; a copy with a bad check, or whose id a lower place holds, is left out and counted. Of the job copies a good one
comes back likewise; a bad one that names a number no other copy has restored comes back DAMAGED and is counted. A write is
queued for a duplicate, a CUTTING record made CUT OPEN, a DAMAGED record, and a sump account or serial counter set to its
default; a good copy of either comes back as stored, least byte first. What the two counts take in is the model's reading
(log entry 28): a slab copy left out as a duplicate is counted, a job copy left out is not. -/
def Obligations.StartUpRecoversTheStore : Prop :=
  ∀ (c : Instr) (straps : Nat) (s : State),
    (c = .pinReset straps ∨ (c = .restart straps ∧ atHead straps (.restart straps) s ∧ roomToAnswer s)) →
    let st := abandonWrite s
    ∃ t : State, exec c s = .next t ∧
      (∀ r, some r ∈ t.register.places → r.state ≠ .cutting ∧ r.holder = none ∧ r.heard = 0) ∧
      (∀ j, some j ∈ t.jobs → j.inUse = 0 ∧ (j.damaged = true → j.closed = true ∨ ∃ bs ∈ st.jobs,
        goodCheck bs = true ∧ jobOfBytes bs = some j)) ∧
      t.register.places.length = st.slabs.length ∧ t.jobs.length = st.jobs.length ∧
      (∀ (i : Nat) (bs : List Byte) (r : SlabRecord), st.slabs[i]? = some bs → goodCheck bs = true →
        slabOfBytes bs = some r → slabBefore st.slabs i r.id = false →
        t.register.places[i]? = some (some { r with state := if r.state = .cutting then .cutOpen else r.state })) ∧
      (∀ (i : Nat) (bs : List Byte), st.slabs[i]? = some bs → slabLeftOut st.slabs i = true ∨ slabOfBytes bs = none →
        t.register.places[i]? = some none) ∧
      (∀ (i : Nat) (bs : List Byte) (j : JobRecord), st.jobs[i]? = some bs → goodCheck bs = true →
        jobOfBytes bs = some j →
        t.jobs[i]? = some (if jobBefore st.jobs i j.number then none else some j)) ∧
      (∀ (i : Nat) (bs : List Byte), st.jobs[i]? = some bs → goodCheck bs = false →
        (u16At bs 0 ≠ 0 → jobBefore st.jobs st.jobs.length (u16At bs 0) = false →
          (∀ k < i, ∀ cs, st.jobs[k]? = some cs → goodCheck cs = false → u16At cs 0 ≠ u16At bs 0) →
          t.jobs[i]? = some (some (damagedJob (u16At bs 0)))) ∧
        (u16At bs 0 = 0 ∨ jobBefore st.jobs st.jobs.length (u16At bs 0) = true ∨
            (∃ k < i, ∃ cs, st.jobs[k]? = some cs ∧ goodCheck cs = false ∧ u16At cs 0 = u16At bs 0) →
          t.jobs[i]? = some none)) ∧
      t.store.leftOut = ((List.range st.slabs.length).filter (slabLeftOut st.slabs)).length ∧
      t.store.damaged = ((List.range st.jobs.length).filter fun i =>
        !goodCheck (st.jobs.getD i []) && (t.jobs.getD i none).isSome).length ∧
      (∀ i, .slab i ∈ toWrite t ↔ ∃ bs r, st.slabs[i]? = some bs ∧ goodCheck bs = true ∧ slabOfBytes bs = some r ∧
        (slabBefore st.slabs i r.id = true ∨ r.state = .cutting)) ∧
      (∀ i, .job i ∈ toWrite t ↔ ∃ bs, st.jobs[i]? = some bs ∧
        ((goodCheck bs = true ∧ ∃ j, jobOfBytes bs = some j ∧ jobBefore st.jobs i j.number = true) ∨
          (goodCheck bs = false ∧ (t.jobs.getD i none).isSome = true))) ∧
      (.sump ∈ toWrite t ↔ goodCheck st.sump = false) ∧ (.serial ∈ toWrite t ↔ goodCheck st.serial = false) ∧
      (goodCheck st.sump = false → t.sump.volume = 0) ∧ (goodCheck st.serial = false → t.register.serial = 1) ∧
      (goodCheck st.sump = true → t.sump.volume = (st.sump.getD 0 0).toNat + 256 * (st.sump.getD 1 0).toNat +
        65536 * (st.sump.getD 2 0).toNat + 16777216 * (st.sump.getD 3 0).toNat) ∧
      (goodCheck st.serial = true →
        t.register.serial = (st.serial.getD 0 0).toNat + 256 * (st.serial.getD 1 0).toNat)

/-- R168, R169, R174, R175, R179: the phases of a transaction, the status byte sampled at its start, filler while bytes
come in, the empty frame once and then filler, a frame begun and its first byte, a frame read out, the end of start-up, and select
going inactive, which counts a frame cut short in the write phase, filler having gone out for the bytes of it that came in,
and leaves one cut short in the read phase at the head, read, its first bytes shifted out. Each changes the host link alone. The attention line is low just while the outbound
queue holds a frame. The model's choices: whether a frame cut short fitted is worked on what the queue held at its length
byte (log entry 9); one cut short during start-up raises no count (log entry 10); a transaction in which a reset was taken
shifts out filler and takes nothing (log entry 44); the empty frame of an empty queue goes out with the read marker, and a
frame's bytes are shown from its first by the row that ends its reading (log entry 54); a reading of a frame that is not
there, and a cut of one that is not there or has come in whole, changes nothing but the phase (log entry 4). -/
def Obligations.TransactionsMoveTheHostLinkAlone : Prop :=
  ∀ s : State,
    let cut (size taken : Nat) : Prop :=
      s.host.inbound.length + (s.host.taken.take taken).length + 1 ≤ 12 ∧
        (s.host.inbound.map inboundSize).sum + (s.host.taken.take taken).sum + size ≤ 384
    let filled (n : Nat) : HostLink := { s.host with phase := .idle, shiftOut := List.replicate n 0xFF#8 }
    let ended (n : Nat) : HostLink := { filled n with truncated := min 65535 (s.host.truncated + 1) }
    (s.attentionLow = true ↔ s.host.outbound ≠ []) ∧
    (s.host.phase = .idle → exec .transactionStart s =
      .next { s with host := { s.host with phase := .write, emptyRead := false, taken := [], shiftOut := [u8
        ((if s.host.startingUp then 0 else 12 - s.host.inbound.length + (if s.host.outbound = [] then 0 else 16))
          + (if s.host.overflow then 32 else 0) + (if s.active.fault.isSome then 64 else 0))] } }) ∧
    (s.host.phase = .write → exec .readMarker s =
      .next { s with host := { s.host with
        phase := .read, emptyRead := decide (s.host.outbound = [])
        shiftOut := 0xFF#8 :: (if s.host.outbound = [] then [0, 0] else []) } }) ∧
    (s.host.phase = .read → s.host.outbound = [] → exec .frameReadBegun s = .next s ∧
      exec .outboundFrameRead s = .next { s with host := { s.host with
        emptyRead := true, shiftOut := if s.host.emptyRead then [0xFF#8] else [0, 0] } }) ∧
    (∀ f rest, s.host.phase = .read → s.host.outbound = f :: rest →
      exec .frameReadBegun s = .next { s with host := { s.host with
        outbound := { f with begun := true } :: rest, shiftOut := [u8 f.report.kind] } } ∧
      (∀ n, 0 < n → n < 2 + f.report.body.length → exec (.selectInactive (.reading n)) s =
        .next { s with host := { s.host with
          phase := .idle, outbound := { f with begun := true } :: rest
          shiftOut := ([u8 f.report.kind, u8 f.report.body.length] ++ f.report.body).take n } }) ∧
      exec .outboundFrameRead s = .next { s with host := { s.host with
        outbound := rest, emptyRead := false
        shiftOut := [u8 f.report.kind, u8 f.report.body.length] ++ f.report.body } }) ∧
    (s.host.phase = .spent →
      (∀ c : Instr, c = .readMarker ∨ c = .frameReadBegun ∨ c = .outboundFrameRead →
        exec c s = .next { s with host := { s.host with shiftOut := [0xFF#8] } }) ∧
      ∀ kind body taken, exec (.inboundFrame kind body taken) s =
        .next { s with host := { s.host with shiftOut := List.replicate (2 + body.length) 0xFF#8 } }) ∧
    (s.host.startingUp = true →
      exec .startUpEnd s = .next { s with host := { s.host with startingUp := false, inbound := [], outbound := [] } }) ∧
    (∀ cut : CutFrame,
      (s.host.phase = .idle ∨ cut = .none ∨ (∃ kind length taken body, cut = .afterLength kind length taken body ∧
          (s.host.phase = .read ∨ length ≤ body)) ∨ (cut = .beforeLength ∧ s.host.phase = .read) ∨
        (∃ n, cut = .reading n ∧ (s.host.phase ≠ .read ∨ n = 0 ∨
          ∀ f, s.host.outbound.head? = some f → 2 + f.report.body.length ≤ n))) →
      exec (.selectInactive cut) s = .next { s with host := { s.host with phase := .idle } }) ∧
    (s.host.phase = .spent ∨ (s.host.phase = .write ∧ s.host.startingUp = true) →
      exec (.selectInactive .beforeLength) s = .next { s with host := filled 1 } ∧
      ∀ kind length taken body, body < length →
        exec (.selectInactive (.afterLength kind length taken body)) s = .next { s with host := filled (2 + body) }) ∧
    (s.host.phase = .write → s.host.startingUp = false →
      exec (.selectInactive .beforeLength) s = .next { s with host := ended 1 } ∧
      ∀ kind length taken body, body < length →
        let size := if isCommandKind kind = true ∧ length ≤ 60 then 2 + length else 2
        (cut size taken → exec (.selectInactive (.afterLength kind length taken body)) s =
          .next { s with host := ended (2 + body) }) ∧
        (¬ cut size taken → exec (.selectInactive (.afterLength kind length taken body)) s =
          .next { s with host := { ended (2 + body) with overflow := true } }))

/-- R169, R170, R179: a frame received whole is placed at the tail when it fitted as its length byte arrived: itself, or a
malformed entry when its kind is unknown or its length above 60; one that did not fit is discarded and the overflow flag
set; one whose last byte comes during start-up is discarded (log entry 10). A malformed entry, or a frame of the wrong
length, is answered BAD FRAME as it is taken. What the queue held at the length byte is what it holds and the `taken`
entries that have left it since, a count the operand carries (log entry 9); a malformed entry's reply carries the kind byte
as it arrived (log entry 36). -/
def Obligations.InboundFramesArePlacedOrCounted : Prop :=
  ∀ (s : State) (kind : Nat) (body : List Byte),
    let shifted : HostLink := { s.host with shiftOut := List.replicate (2 + body.length) 0xFF#8, taken := [] }
    let known := isCommandKind kind = true ∧ body.length ≤ 60
    (s.host.phase = .write → s.host.startingUp = true → ∀ taken,
      exec (.inboundFrame kind body taken) s = .next { s with host := shifted }) ∧
    (s.host.phase = .write → s.host.startingUp = false → ∀ taken,
      let fits (size : Nat) : Prop :=
        s.host.inbound.length + (s.host.taken.take taken).length + 1 ≤ 12 ∧
          (s.host.inbound.map inboundSize).sum + (s.host.taken.take taken).sum + size ≤ 384
      (known → fits (2 + body.length) → exec (.inboundFrame kind body taken) s =
        .next { s with host := { shifted with inbound := s.host.inbound ++ [.frame kind body] } }) ∧
      (¬ known → fits 2 → exec (.inboundFrame kind body taken) s =
        .next { s with host := { shifted with inbound := s.host.inbound ++ [.malformed kind] } }) ∧
      ((known ∧ ¬ fits (2 + body.length)) ∨ (¬ known ∧ ¬ fits 2) → exec (.inboundFrame kind body taken) s =
        .next { s with host := { shifted with overflow := true } })) ∧
    (∀ rest, roomToAnswer s → (s.host.inbound = .malformed kind :: rest ∨
        (s.host.inbound = .frame kind body :: rest ∧ decodeCommand 0 kind body = none)) →
      exec .malformedFrame s = .next (refusedBy kind .badFrame s))

/-- R172: an ordinary report is admitted at the tail while the frames held stay at or below 18 and the bytes at or
below 672; otherwise it is dropped and the dropped-report count rises by one, to 65,535 at most. R71: an order frame, of
20 bytes at most, is never dropped while the reserve is free for it: an update frame takes the place of the unread one for
its tag, and any other goes to the tail. That the reserve is free whenever the plan slots hand one is log entry 46. R186,
12: every report frame has the kind and, low byte first, the fields of the body that 12's tables give it; what a rejection
record's absent partner index, x and y read as is the model's choice (log entry 53). -/
def Obligations.ReportsAreAdmittedOrCounted : Prop :=
  (∀ r : Report, r.kind = (reportFields r).1 ∧ r.body = (reportFields r).2.flatMap fieldBytes) ∧
  (∀ (r : Report) (s : State),
    (s.host.outbound.length + 1 ≤ 18 → heldBytes s.host.outbound + 2 + r.body.length ≤ 672 →
      report r s = { s with host := { s.host with outbound := s.host.outbound ++ [⟨r, false⟩] } }) ∧
    (18 < s.host.outbound.length + 1 ∨ 672 < heldBytes s.host.outbound + 2 + r.body.length →
      report r s = { s with host := { s.host with dropped := min 65535 (s.host.dropped + 1) } })) ∧
  (∀ r : Report, r.isOrder = true → 2 + r.body.length ≤ 20) ∧
  (∀ (o : Order) (bevel : Bool) (tag segment feed water : Nat),
    (Report.segmentOrder o bevel).updateTag = none ∧ (Report.feedUpdate tag segment feed water).updateTag = some tag ∧
    (Report.holdOrder tag segment).updateTag = some tag ∧ (Report.stopOrder tag segment).updateTag = some tag) ∧
  (∀ (r : Report) (s : State), s.host.outbound.length ≤ 19 → heldBytes s.host.outbound + 2 + r.body.length ≤ 768 →
    let unread (tag : Nat) (f : Outbound) : Prop := f.begun = false ∧ f.report.updateTag = some tag
    (∀ tag before f after, r.updateTag = some tag → s.host.outbound = before ++ f :: after → unread tag f →
      (∀ x ∈ before, ¬ unread tag x) →
      orderFrame r s = { s with host := { s.host with outbound := before ++ ⟨r, false⟩ :: after } }) ∧
    ((∀ tag, r.updateTag = some tag → ∀ x ∈ s.host.outbound, ¬ unread tag x) →
      orderFrame r s = { s with host := { s.host with outbound := s.host.outbound ++ [⟨r, false⟩] } }))

/-- R183: a write completed leaves its bytes in its place, and the erase of R185 every slab and job place empty; one the
store does not complete is counted, and the store left with that place's bytes one of three, free which (log entry 12):
those before the write, its own, or a copy whose check fails; an erase has by then cleared a free number of places in order
(log entry 13). Nothing else changes, and the next entry goes out from the head at the end of the same step (log entry 14)
with the contents its place holds then. A change to a place queues an entry at the tail unless one is pending. The
model's choices: with no write in flight neither row changes anything (log entry 4), and a write may time out whatever time
it has left (log entry 6). -/
def Obligations.StoreWritesGoOutOneByOne : Prop :=
  (∀ (s : State) (w : StoreWrite), s.store.inFlight = some w →
    let old : List Byte := match w.place with
      | .slab i => s.store.slabs.getD i []
      | .job i => s.store.jobs.getD i []
      | .sump => s.store.sump
      | .serial => s.store.serial
      | .config => s.store.config
      | .calibration => s.store.calibration
      | .erase => []
    let holding (bytes : List Byte) : Store := match w.place with
      | .slab i => { s.store with slabs := s.store.slabs.set i bytes, inFlight := none }
      | .job i => { s.store with jobs := s.store.jobs.set i bytes, inFlight := none }
      | .sump => { s.store with sump := bytes, inFlight := none }
      | .serial => { s.store with serial := bytes, inFlight := none }
      | .config => { s.store with config := bytes, inFlight := none }
      | .calibration => { s.store with calibration := bytes, inFlight := none }
      | .erase => { s.store with inFlight := none }
    let failed (st : Store) : State :=
      { s with store := { st with faults := min 65535 (s.store.faults + 1) }, freeUses := s.freeUses + 1 }
    (w.place ≠ .erase → exec .storeWriteDone s = .next (launchWrite { s with store := holding w.bytes })) ∧
    (w.place ≠ .erase → exec .storeWriteTimeout s =
      .next (launchWrite (failed (holding (leftBytes s.freeUses old w.bytes))))) ∧
    (w.place = .erase → s.store.slabs.length = 64 → s.store.jobs.length = 24 →
      exec .storeWriteDone s = .next (launchWrite { s with store := { s.store with
        slabs := List.replicate 64 (slabPlaceBytes none), jobs := List.replicate 24 (jobPlaceBytes none)
        inFlight := none } }) ∧
      (let n := Config.eraseReached s.freeUses % 89
      let left (reached : Nat) (empty before : List Byte) : List Byte :=
        if reached < n then empty else if reached = n then leftBytes s.freeUses before empty else before
      exec .storeWriteTimeout s = .next (launchWrite (failed { s.store with
        slabs := s.store.slabs.mapIdx fun i bs => left i (slabPlaceBytes none) bs
        jobs := s.store.jobs.mapIdx fun i bs => left (64 + i) (jobPlaceBytes none) bs
        inFlight := none }))))) ∧
  (∀ (use : Nat) (before written : List Byte),
    leftBytes use before written = before ∨ leftBytes use before written = written ∨
      ((leftBytes use before written).length = written.length ∧ goodCheck (leftBytes use before written) = false)) ∧
  (∀ s : State, s.store.inFlight = none → exec .storeWriteDone s = .next s ∧ exec .storeWriteTimeout s = .next s) ∧
  (∀ (s : State) (p : StorePlace) (rest : List StorePlace), s.store.inFlight = none → s.store.queue = p :: rest →
    launchWrite s = { s with store := { s.store with
      queue := rest, inFlight := some ⟨p, placeBytes s p, if p = .erase then 450 else 5⟩ } }) ∧
  (∀ (s : State), s.store.inFlight.isSome = true ∨ s.store.queue = [] → launchWrite s = s) ∧
  (∀ (s : State) (p : StorePlace), queueWrite p s =
    if p ∈ s.store.queue then s else { s with store := { s.store with queue := s.store.queue ++ [p] } })

/-! ### The slab register (01) -/

/-- R1: the slab ids and the press ids. R2: the id issued is held by no record of the register: it is this station's number
times 2048 plus the first serial from the counter on, 2047 being followed by 1, that no record of that number holds, within
65 tries; the counter advances past it, its write queued. -/
def Obligations.IssuedIdIsFresh : Prop :=
  (∀ n : Nat, (isSlabId n = true ↔ namesSlab n) ∧ (isPressId n = true ↔ namesPress n)) ∧
  ∀ s : State, s.register.places.length ≤ 64 →
    findSlab s (idToIssue s) = none ∧
    (1 ≤ s.register.serial → s.register.serial ≤ 2047 →
      let held (k : Nat) : Prop :=
        ∃ r : SlabRecord, some r ∈ s.register.places ∧ r.id = s.own * 2048 + serialFrom s.register.serial k
      ∃ k < 65, (∀ j < k, held j) ∧ ¬ held k ∧
        idToIssue s = s.own * 2048 + serialFrom s.register.serial k ∧
        nextSerial (serialToIssue s) = serialFrom s.register.serial (k + 1) ∧
        advanceSerial s = queueWrite .serial
          { s with register := { s.register with serial := serialFrom s.register.serial (k + 1) } })

/-- R8, R9: no place being free, the record evicted is a candidate: the GONE candidate of the oldest heard order if
there is one, else the STOCK one, the lowest id among equals; where there is no candidate there is no room. R10: for
reservations, candidates are evicted in that order until the number asked for is free. R3: a record evicted leaves its place
empty, the removal of its stored copy queued. -/
def Obligations.EvictionTakesTheOldest : Prop :=
  (∀ s : State,
    let first (r : SlabRecord) : Prop := r ∈ evictionCandidates s ∧
      (∀ q ∈ evictionCandidates s, q.state = .gone →
        r.state = .gone ∧ (r.heard < q.heard ∨ (r.heard = q.heard ∧ r.id ≤ q.id))) ∧
      (∀ q ∈ evictionCandidates s, r.state = .stock → q.state = .stock ∧
        (r.heard < q.heard ∨ (r.heard = q.heard ∧ r.id ≤ q.id)))
    (0 < freePlaces s → makeRoom s = some s) ∧
    (freePlaces s = 0 → evictionCandidates s = [] → makeRoom s = none) ∧
    (freePlaces s = 0 → evictionCandidates s ≠ [] → ∃ r, first r ∧ makeRoom s = some (removeSlab r.id s)) ∧
    (∀ r ∈ evictionCandidates s, (r.state = .gone ∨ (r.state = .stock ∧ s.station.number ≠ some (r.id / 2048))) ∧
      claimOn s r.id = none ∧ (∀ p, s.staged.plan? = some p → p.slab ≠ r.id) ∧
      (s.active.state.refersToSlab = true → s.active.plan.slab ≠ r.id)) ∧
    (∀ n left : Nat,
      (n ≤ freePlaces s ∨ evictionCandidates s = [] ∨ left = 0 → evictUntil n left s = s) ∧
      (freePlaces s < n → evictionCandidates s ≠ [] →
        ∃ r, first r ∧ evictUntil n (left + 1) s = evictUntil n left (removeSlab r.id s)))) ∧
  (∀ (id i : Nat) (r : SlabRecord) (s : State), s.register.places[i]? = some (some r) → r.id = id →
    (∀ k, k ≠ i → ∀ q, s.register.places[k]? = some (some q) → q.id ≠ id) →
    removeSlab id s = queueWrite (.slab i)
      { s with register := { s.register with places := s.register.places.set i none } })

/-- R18, R2, R8, R9, R15: ENTER SLAB. Refused in the order of its checks, with nothing else changed but what the store
controller launches; otherwise a place is had, an id issued, a STOCK record made in the lowest free place with no
parent, no holder and a fresh stamp, the serial counter and the record queued for the store, and a SLAB notice handed.
R15: the register hands notices in LISTENING and ACTIVE and none in INERT and MUTED. R3, R6, R8: a change of a record's
state or contents changes that record alone and queues its store write, a stamp queues none, and a number of no record
changes nothing. R3, R4: the ranges of contents, entered (a defect at least 1 each way) and in a SLAB notice (at least 0);
that a parent named is a slab id is the model's reading (log entry 26). -/
def Obligations.EnterSlabMakesARecord : Prop :=
  (∀ (least : Nat) (c : SlabContents), contentsInRange least c = true ↔ contentsHold least c) ∧
  (∀ (cls thickness width height price : Nat) (defects : List Defect) (s : State),
    let c := Instr.enterSlab cls thickness width height price defects
    let contents : SlabContents := ⟨cls, thickness, width, height, price, none, defects⟩
    ready c s → s.register.places.length = 64 →
    (∀ why, firstRefusal (enterSlabTable contents s) = some why →
      exec c s = .next (launchWrite (refusedBy 0x01 why s))) ∧
    (∀ own u i, s.station.number = some own → contentsInRange 1 contents = true → makeRoom s = some u →
      lowestFree u = some i →
      exec c s = .next (launchWrite (announce (.slab (idToIssue u) contents)
        (queueWrite (.slab i) (queueWrite .serial (answered (.accepted 0x01 (.slabId (idToIssue u)))
          { u with register := { u.register with
            serial := nextSerial (serialToIssue u), heard := min max32 (u.register.heard + 1)
            places := u.register.places.set i
              (some ⟨idToIssue u, contents, .stock, none, min max32 (u.register.heard + 1)⟩) } }))))))) ∧
  (∀ (n : Notice) (s : State),
    ((s.floor.attach = .listening ∨ s.floor.attach = .active) → announce n s = handNotice n none s) ∧
    ((s.floor.attach = .inert ∨ s.floor.attach = .muted) → announce n s = s)) ∧
  (∀ (id i : Nat) (r : SlabRecord) (s : State), s.register.places[i]? = some (some r) → r.id = id →
    (∀ k, k ≠ i → ∀ q, s.register.places[k]? = some (some q) → q.id ≠ id) →
    let holding (q : SlabRecord) : State :=
      { s with register := { s.register with places := s.register.places.set i (some q) } }
    findSlab s id = some r ∧
    (∀ st, setSlabState id st s = queueWrite (.slab i) (holding { r with state := st })) ∧
    storeSlab id s = queueWrite (.slab i) s ∧
    (∀ h, setHolder id h s = holding { r with holder := h }) ∧
    stampSlab id s = { s with register := { s.register with
      heard := min max32 (s.register.heard + 1)
      places := s.register.places.set i (some { r with heard := min max32 (s.register.heard + 1) }) } }) ∧
  (∀ (id : Nat) (s : State), findSlab s id = none →
    (∀ st, setSlabState id st s = s) ∧ storeSlab id s = s ∧ ∀ h, setHolder id h s = s)

/-- R19, R20, R139, R177, R178: the reading commands. Each is answered and followed by its report frames, each judged
for admission on its own; nothing but the host link changes, and of it READ STATION clears the overflow flag when its
view is admitted. A number out of range, or of no record, is refused. LIST SLABS gives the first 12 records at or above its
start in ascending id order, and whether more follow. STATION VIEW and PEER VIEW show the part as the command is taken; how a
part of a tenth is rounded is the model's free value (log entry 7). -/
def Obligations.ReadingCommandsAnswerAndChangeNothing : Prop :=
  (∀ (id : Nat) (s : State), ready (.readSlab id) s →
    (isSlabId id = false → exec (.readSlab id) s = .next (launchWrite (refusedBy 0x02 .range s))) ∧
    (isSlabId id = true → findSlab s id = none →
      exec (.readSlab id) s = .next (launchWrite (refusedBy 0x02 .unknownSlab s))) ∧
    (∀ r, isSlabId id = true → findSlab s id = some r → exec (.readSlab id) s =
      .next (launchWrite (report (.slabRecordTail r.id r.contents.defects)
        (report (.slabRecordHead r) (acceptedBy 0x02 s)))))) ∧
  (∀ (start : Nat) (s : State), ready (.listSlabs start) s →
    (63487 < start → exec (.listSlabs start) s = .next (launchWrite (refusedBy 0x03 .range s))) ∧
    (start ≤ 63487 → ∃ all : List (Nat × SlabState), exec (.listSlabs start) s =
        .next (launchWrite (report (.slabList (all.take 12) (decide (12 < all.length))) (acceptedBy 0x03 s))) ∧
      all.Perm (((slabRecords s).filter fun r => decide (start ≤ r.id)).map fun r => (r.id, r.state)) ∧
      (all.map (·.1)).Pairwise (· ≤ ·) ∧ (slabsDistinct s → (all.map (·.1)).Pairwise (· < ·)))) ∧
  (∀ (job : Nat) (s : State), ready (.readJob job) s →
    (job = 0 → exec (.readJob job) s = .next (launchWrite (refusedBy 0x16 .range s))) ∧
    (job ≠ 0 → findJob s job = none → exec (.readJob job) s = .next (launchWrite (refusedBy 0x16 .jobNotOpen s))) ∧
    (∀ j, job ≠ 0 → findJob s job = some j → exec (.readJob job) s =
      .next (launchWrite (report (.jobTail j) (report (.jobHead j) (acceptedBy 0x16 s)))))) ∧
  (∀ s : State, ready .readStation s →
    let view : StationView :=
      { station := s.station.number, attach := s.floor.attach, clamped := s.settings.clamped
        degraded := s.settings.degraded, overflow := s.host.overflow, leftOut := s.store.leftOut
        damaged := s.store.damaged, sumpDefault := s.store.sumpDefault, serialDefault := s.store.serialDefault
        storeFaults := s.store.faults, idleRecycled := s.water.idleRecycled, idleFresh := s.water.idleFresh
        volume := s.sump.volume, purge := s.sump.state, dropped := s.host.dropped, truncated := s.host.truncated
        checkErrors := s.floor.checkErrors, formatErrors := s.floor.formatErrors, lostNotices := s.floor.lostNotices
        lineFaults := s.floor.lineFaults, retryDrops := s.floor.retryDrops, backlogDrops := s.floor.backlogDrops
        conflicts := s.claims.conflicts, discarded := s.register.discarded, refused := s.register.refused }
    let u := acceptedBy 0x19 s
    exec .readStation s = .next (launchWrite { u with host := { u.host with
      outbound := u.host.outbound ++ [⟨.stationView view, false⟩], overflow := false } })) ∧
  (∀ (v : StationView) (u : State),
    let admitted := u.host.outbound.length ≤ 17 ∧ heldBytes u.host.outbound + 2 + v.bytes.length ≤ 672
    (admitted → sendView v u = { u with host := { u.host with
      outbound := u.host.outbound ++ [⟨.stationView v, false⟩], overflow := false } }) ∧
    (¬ admitted → sendView v u = report (.stationView v) u)) ∧
  (∀ s : State, ready .readPeers s →
    let shown (k : Nat) : PeerEntry :=
      let p := peerOf s k
      { unused := decide (s.station.number = some k), presence := p.presence, busy := p.busy, demand := p.demand
        heard := if p.presence = .absent then none else p.heard.map tenthsOf, fingerprint := p.fingerprint }
    exec .readPeers s =
      .next (launchWrite (reports ([(0, 7), (7, 7), (14, 7), (21, 7), (28, 3)].map fun (f : Nat × Nat) =>
        Report.peerView f.1 ((List.range f.2).map fun i => shown (f.1 + i))) (acceptedBy 0x1A s)))) ∧
  (∀ ms : Nat, (ms % 100 = 0 → tenthsOf ms = ms / 100) ∧ (tenthsOf ms = ms / 100 ∨ tenthsOf ms = ms / 100 + 1))

/-! ### Claims (02) -/

/-- R25, R22, R161: TAKE. Refused in the order of its checks with nothing else changed; otherwise an entry is made in
POLLING for the job and its first POLL handed and counted (in its place in a transmit queue with room; R162 and R28
otherwise). The handle is the model's own (log entry 18). -/
def Obligations.TakeMakesAPollingEntry : Prop :=
  ∀ (slab job : Nat) (s : State), ready (.take slab job) s →
    (∀ why, firstRefusal (takeTable slab job s) = some why →
      exec (.take slab job) s = .next (launchWrite (refusedBy 0x04 why s))) ∧
    (firstRefusal (takeTable slab job s) = none → (∀ e ∈ s.claims.entries, e.handle ≠ s.claims.nextHandle) →
      (s.floor.queue.length < 16 → exec (.take slab job) s =
        .next (launchWrite (handed (.poll slab) (some s.claims.nextHandle) { acceptedBy 0x04 s with
          claims := { s.claims with
            entries := s.claims.entries ++
              [⟨s.claims.nextHandle, slab, .slab job, .polling, 1, .unsent, none⟩]
            nextHandle := s.claims.nextHandle + 1 } }))) ∧
      exec (.take slab job) s = .next (launchWrite (handPoll 4 s.claims.nextHandle { acceptedBy 0x04 s with
          claims := { s.claims with
            entries := s.claims.entries ++
              [⟨s.claims.nextHandle, slab, .slab job, .polling, 0, .unsent, none⟩]
            nextHandle := s.claims.nextHandle + 1 } })))

/-- R36, R37, R38, R40: GIVE. Refused in the order of its checks; otherwise the HELD entry leaves the table, RELEASE is handed
and the register clears the holder field. The same is any release, a press entry's touching no holder field; a request that
finds no HELD entry changes nothing. -/
def Obligations.GiveReleasesTheClaim : Prop :=
  (∀ (slab : Nat) (s : State), ready (.give slab) s →
    (∀ why, firstRefusal (giveTable slab s) = some why → exec (.give slab) s = .next (launchWrite (refusedBy 0x05 why s))) ∧
    (∀ e job, firstRefusal (giveTable slab s) = none → claimOn s slab = some e → e.purpose = .slab job →
      exec (.give slab) s = .next (launchWrite (setHolder slab none (handNotice (.release slab) none
        { acceptedBy 0x05 s with claims := { s.claims with
          entries := s.claims.entries.filter (·.handle != e.handle) } }))))) ∧
  (∀ (resource : Nat) (s : State),
    ((∀ e, claimOn s resource = some e → e.stage ≠ .held) → releaseClaim resource s = s) ∧
    (∀ e, claimOn s resource = some e → e.stage = .held →
      let freed := handNotice (.release resource) none
        { s with claims := { s.claims with entries := s.claims.entries.filter (·.handle != e.handle) } }
      (∀ job, e.purpose = .slab job → releaseClaim resource s = setHolder resource none freed) ∧
      (e.purpose = .press → releaseClaim resource s = freed)))

/-- R161, R162, R29: a notice handed to a transmit queue with room stands after every entry of its own or a higher
precedence. A full queue drops one notice, of the lowest precedence and the youngest of that among those waiting and
the new one; the drop is counted and trapped, and a dropped CLAIM of a live entry settles. R25, R28: a POLL handed is
counted at its entry; where the full queue drops it, the entry polls again while its count is below 4, and at 4 ends with
LINE NOISY, handing RELEASE from TENTATIVE. The model's choices: the trap carries plan number 0 and no segment (log entry
19), and the owner acts before the trap is admitted (log entry 40). -/
def Obligations.HandedNoticeTakesItsPlace : Prop :=
  ∀ (n : Notice) (owner : Option Nat) (s : State),
    (s.floor.queue.length < 16 → handNotice n owner s = handed n owner s) ∧
    (∀ e q, insertTx e q = q.takeWhile (fun x => decide (x.notice.kind ≤ e.notice.kind)) ++ e ::
      q.dropWhile (fun x => decide (x.notice.kind ≤ e.notice.kind))) ∧
    (16 ≤ s.floor.queue.length → (∀ e ∈ s.floor.queue, e.age < s.floor.nextAge) → ∃ d : TxEntry,
      let new : TxEntry := ⟨n, owner, 0, s.floor.nextAge, false, false⟩
      (d = new ∨ (d ∈ s.floor.queue ∧ d.sending = false)) ∧
      (∀ e, e = new ∨ (e ∈ s.floor.queue ∧ e.sending = false) →
        e.notice.kind < d.notice.kind ∨ (e.notice.kind = d.notice.kind ∧ e.age ≤ d.age)) ∧
      handNotice n owner s = trap (.lineBacklog d.notice.kind) 0 none (ownerDropped d
        { s with floor := { s.floor with
          queue := if d = new then s.floor.queue else insertTx new (s.floor.queue.erase d)
          nextAge := s.floor.nextAge + 1, backlogDrops := min 65535 (s.floor.backlogDrops + 1) } })) ∧
    (∀ d : TxEntry,
      (∀ r job h, d.notice = .claim r job → d.owner = some h → d.yielded = false →
        ownerDropped d s = mapClaim h (fun e => { e with notice := .done, settle := some 30 }) s) ∧
      (d.notice.kind ≠ 2 ∨ d.owner = none ∨ d.yielded = true → ownerDropped d s = s)) ∧
    (∀ (h left : Nat) (e : ClaimEntry), claimOf s h = some e →
      let polled := mapClaim h (fun x => { x with polls := x.polls + 1 }) s
      let dropped (queue : List TxEntry) : State := { polled with floor := { s.floor with
        queue := queue, nextAge := s.floor.nextAge + 1, backlogDrops := min 65535 (s.floor.backlogDrops + 1) } }
      (s.floor.queue.length < 16 → handPoll (left + 1) h s = handed (.poll e.resource) (some h) polled) ∧
      (16 ≤ s.floor.queue.length → (∃ x ∈ s.floor.queue, x.sending = false ∧ 1 < x.notice.kind) →
        ∃ d ∈ s.floor.queue, d.sending = false ∧
          (∀ x ∈ s.floor.queue, x.sending = false →
            x.notice.kind < d.notice.kind ∨ (x.notice.kind = d.notice.kind ∧ x.age ≤ d.age)) ∧
          handPoll (left + 1) h s = trap (.lineBacklog d.notice.kind) 0 none (ownerDropped d
            (dropped (insertTx ⟨.poll e.resource, some h, 0, s.floor.nextAge, false, false⟩ (s.floor.queue.erase d))))) ∧
      (16 ≤ s.floor.queue.length → (∀ x ∈ s.floor.queue, x.sending = false → x.notice.kind ≤ 1) →
        (e.polls + 1 < 4 →
          handPoll (left + 1) h s = trap (.lineBacklog 1) 0 none (handPoll left h (dropped s.floor.queue))) ∧
        (4 ≤ e.polls + 1 →
          let ended := endClaim h .lineNoisy none (dropped s.floor.queue)
          handPoll (left + 1) h s = trap (.lineBacklog 1) 0 none
            (if e.stage = .tentative then handNotice (.release e.resource) none ended else ended))))

/-! ### Cut plans (03) -/

/-- R45, R63: PLAN HEAD refused for a plan number 0 or a number that is no slab id, DROP PLAN for an EMPTY slot;
accepted in every other staged state, with what the slot held discarded: from VALID its reservations and in-use counts
are released, from any other state nothing but the slot changes. R1: what a slab id is. The active slot is not touched. R141: a plan holds each
distinct job of its pieces once, in order of first appearance, and gains and gives up one of that job's in-use count. -/
def Obligations.PlanHeadAndDropPlanEmptyTheSlot : Prop :=
  (∀ (plan slab : Nat) (s : State),
    let released (p : Plan) (u : State) : State := releaseJobs (distinctJobs p.pieces)
      { u with register := { u.register with reservations := u.register.reservations - p.reservations } }
    let fresh : Staged := .loading ⟨plan, slab, [], [], [], none, 0⟩
    (ready (.planHead plan slab) s →
      (plan = 0 ∨ ¬ namesSlab slab →
        exec (.planHead plan slab) s = .next (launchWrite (refusedBy 0x06 .range s))) ∧
      (plan ≠ 0 → namesSlab slab → (∀ p, s.staged ≠ .valid p) →
        exec (.planHead plan slab) s = .next (launchWrite { acceptedBy 0x06 s with staged := fresh })) ∧
      (∀ p, plan ≠ 0 → namesSlab slab → s.staged = .valid p →
        exec (.planHead plan slab) s = .next (launchWrite { released p (acceptedBy 0x06 s) with staged := fresh }))) ∧
    (ready .dropPlan s →
      (s.staged = .empty → exec .dropPlan s = .next (launchWrite (refusedBy 0x0B .noPlan s))) ∧
      (s.staged ≠ .empty → (∀ p, s.staged ≠ .valid p) →
        exec .dropPlan s = .next (launchWrite { acceptedBy 0x0B s with staged := .empty })) ∧
      (∀ p, s.staged = .valid p →
        exec .dropPlan s = .next (launchWrite { released p (acceptedBy 0x0B s) with staged := .empty })))) ∧
  (∀ (jobs : List Nat) (s : State), jobs.Nodup →
    let counted (f : Nat → Nat) : State :=
      { s with jobs := s.jobs.map (Option.map fun j => if j.number ∈ jobs then { j with inUse := f j.inUse } else j) }
    holdJobs jobs s = counted (· + 1) ∧ releaseJobs jobs s = counted (· - 1)) ∧
  (distinctJobs [] = [] ∧ ∀ (pieces : List PieceEntry) (p : PieceEntry),
    (distinctJobs pieces).Nodup ∧ (p.job ∈ distinctJobs pieces ↔ p.job ∈ pieces.map (·.job)) ∧
    distinctJobs (pieces ++ [p]) =
      if p.job ∈ pieces.map (·.job) then distinctJobs pieces else distinctJobs pieces ++ [p.job])

/-- R46, R47, R48, R43, R44: the loading frames. Refused with STATE unless the slot is LOADING, with RANGE when a
count, an entry or the list's length breaks its limit, the slot left as it was; otherwise pieces and segments are
appended and remnants replaced, in the order carried. The limits are R43's and R44's: a piece's job number 1 to 65,535 and
rectangle, a remnant at least 300 each way, a segment's endpoints, depth and piece index; the mode byte gives a segment's
depth, bevel and kind. -/
def Obligations.LoadingFramesFillTheLists : Prop :=
  (∀ p : PieceEntry, pieceInRange p = true ↔ 1 ≤ p.job ∧ p.job ≤ 65535 ∧ rectHolds p.rect) ∧
  (∀ r : Rect, remnantInRange r = true ↔ rectHolds r ∧ 300 ≤ r.w ∧ 300 ≤ r.h) ∧
  (∀ e : SegmentEntry, (segmentInRange e = true ↔ segmentHolds e) ∧
    (e.mode < 256 → entrySegment e = {
      kind := if e.mode < 128 then .rip else .cross, start := ⟨e.startX, e.startY⟩, stop := ⟨e.endX, e.endY⟩
      depth := if e.mode % 64 = 0 then none else some (e.mode % 64)
      bevel := decide (64 ≤ e.mode % 128), piece := e.piece })) ∧
  (∀ (pieces : List PieceEntry) (s : State), ready (.planPieces pieces) s →
    ((∀ p, s.staged ≠ .loading p) → exec (.planPieces pieces) s = .next (launchWrite (refusedBy 0x07 .state s))) ∧
    (∀ p, s.staged = .loading p →
      (pieces = [] ∨ 4 < pieces.length ∨ (∃ e ∈ pieces, pieceInRange e = false) ∨
        16 < p.pieces.length + pieces.length →
        exec (.planPieces pieces) s = .next (launchWrite (refusedBy 0x07 .range s))) ∧
      (pieces ≠ [] → pieces.length ≤ 4 → (∀ e ∈ pieces, pieceInRange e = true) →
        p.pieces.length + pieces.length ≤ 16 → exec (.planPieces pieces) s =
          .next (launchWrite { acceptedBy 0x07 s with staged := .loading { p with pieces := p.pieces ++ pieces } })))) ∧
  (∀ (remnants : List Rect) (s : State), ready (.planRemnants remnants) s →
    ((∀ p, s.staged ≠ .loading p) → exec (.planRemnants remnants) s = .next (launchWrite (refusedBy 0x08 .state s))) ∧
    (∀ p, s.staged = .loading p →
      (4 < remnants.length ∨ (∃ r ∈ remnants, remnantInRange r = false) →
        exec (.planRemnants remnants) s = .next (launchWrite (refusedBy 0x08 .range s))) ∧
      (remnants.length ≤ 4 → (∀ r ∈ remnants, remnantInRange r = true) → exec (.planRemnants remnants) s =
          .next (launchWrite { acceptedBy 0x08 s with staged := .loading { p with remnants := remnants } })))) ∧
  (∀ (segments : List SegmentEntry) (s : State), ready (.planSegments segments) s →
    ((∀ p, s.staged ≠ .loading p) → exec (.planSegments segments) s = .next (launchWrite (refusedBy 0x09 .state s))) ∧
    (∀ p, s.staged = .loading p →
      (segments = [] ∨ 6 < segments.length ∨ (∃ e ∈ segments, segmentInRange e = false) ∨
        40 < p.segments.length + segments.length →
        exec (.planSegments segments) s = .next (launchWrite (refusedBy 0x09 .range s))) ∧
      (segments ≠ [] → segments.length ≤ 6 → (∀ e ∈ segments, segmentInRange e = true) →
        p.segments.length + segments.length ≤ 40 → exec (.planSegments segments) s =
          .next (launchWrite { acceptedBy 0x09 s with
            staged := .loading { p with segments := p.segments ++ segments.map entrySegment } }))))

/-- R49, R50, R57, R58, R59, R60, R61: PLAN END. Refused with NO PLAN for an EMPTY slot. A LOADING plan is validated:
the first of checks 1 to 8 that fails, then check 9 (no reservation to be had), then check 10, makes it REJECTED with
that record; otherwise it goes VALID with a reservation for each remnant, an in-use count for each distinct job and
its estimate. A judged plan has its outcome handed again and nothing else changes. R5, R51 to R56: checks 1 to 8 pass as
their rules ask of the plan, and the rejection names the first check that fails and the item its rule gives; R58: check 10
the first piece whose job is not present and OPEN. R61, R106: the estimate works every segment as one portion at nominal
water, with no fresh draw, and shares the slab. -/
def Obligations.PlanEndValidatesOrRepeats : Prop :=
  (∀ s : State, ready .planEnd s →
    let a := acceptedBy 0x0A s
    (s.staged = .empty → exec .planEnd s = .next (launchWrite (refusedBy 0x0A .noPlan s))) ∧
    (∀ p why, s.staged = .loading p → judgePlan s p = some why → exec .planEnd s =
      .next (launchWrite (report (.planRejected p.number why) { a with staged := .rejected p why }))) ∧
    (∀ p, s.staged = .loading p → judgePlan s p = none → placesOnOffer s < p.remnants.length → exec .planEnd s =
      .next (launchWrite (report (.planRejected p.number ⟨9, .remnant, placesOnOffer s, none, none, none⟩)
        { a with staged := .rejected p ⟨9, .remnant, placesOnOffer s, none, none, none⟩ }))) ∧
    (∀ p why, s.staged = .loading p → judgePlan s p = none → p.remnants.length ≤ placesOnOffer s →
      checkJobs s p = some why → exec .planEnd s = .next (launchWrite (report (.planRejected p.number why)
        { evictUntil p.remnants.length p.remnants.length a with staged := .rejected p why }))) ∧
    (∀ p, s.staged = .loading p → judgePlan s p = none → p.remnants.length ≤ placesOnOffer s → checkJobs s p = none →
      let u := evictUntil p.remnants.length p.remnants.length a
      let e := estimateOf s.settings.cfg (contentsOf u p.slab) p
      exec .planEnd s = .next (launchWrite (reports (.planValid p.number e :: e.lines.map (.planLine p.number))
        (holdJobs (distinctJobs p.pieces) { u with
          staged := .valid { p with estimate := some e, reservations := p.remnants.length }
          register := { u.register with reservations := u.register.reservations + p.remnants.length } })))) ∧
    (∀ p e, s.staged = .valid p → p.estimate = some e → exec .planEnd s =
      .next (launchWrite (reports (.planValid p.number e :: e.lines.map (.planLine p.number)) a))) ∧
    (∀ p why, s.staged = .rejected p why →
      exec .planEnd s = .next (launchWrite (report (.planRejected p.number why) a))) ∧
    (∀ p cause, s.staged = .stale p cause →
      exec .planEnd s = .next (launchWrite (report (.planStale p.number p.slab cause) a)))) ∧
  (∀ (s : State) (p : Plan),
    (judgePlan s p = none ↔ ∀ n, checkPasses s p n) ∧
    (∀ w, judgePlan s p = some w → 1 ≤ w.check ∧ w.check ≤ 8 ∧ (∀ n < w.check, checkPasses s p n) ∧
      ¬ checkPasses s p w.check ∧ rejectionFits s p w) ∧
    (let jobIsOpen (e : PieceEntry) : Prop := ∃ j, findJob s e.job = some j ∧ j.closed = false
    (checkJobs s p = none ↔ ∀ e ∈ p.pieces, jobIsOpen e) ∧
    ∀ w, checkJobs s p = some w → ∃ before e after, p.pieces = before ++ e :: after ∧ (∀ b ∈ before, jobIsOpen b) ∧
      ¬ jobIsOpen e ∧ w = ⟨10, .job, before.length, none, none, none⟩)) ∧
  (∀ (cfg : ConfigFields) (c : SlabContents) (p : Plan),
    let depth (g : Segment) : Nat := effectiveDepth c.thickness cfg.overcut g
    let time (g : Segment) : Nat := expectedTime (pathLength g.kind g.start g.stop) (baseFeed cfg (depth g) c.cls)
    let water (g : Segment) : Nat := expectedWater cfg.qnom (time g)
    let portion (g : Segment) : Portion :=
      portionOf cfg c.cls (depth g) (inStoneLength c g.kind g.start g.stop) (time g) (water g) 0
    let total (figure : Segment → Nat) (of : List Segment) : Nat := min 4294967295 (of.map figure).sum
    let e := estimateOf cfg c p
    e.time = total time p.segments ∧ e.water = total water p.segments ∧
    e.wear = total (fun g => (portion g).wear) p.segments ∧ e.solids = total (fun g => (portion g).solids) p.segments ∧
    e.lines = (apportion c p.pieces (p.remnants.map fun r => r.w * r.h / 100).sum).map (fun l =>
      let mine := p.segments.filter fun g => (p.pieces.getD g.piece default).job == l.job
      ⟨l.job, total (fun g => (portion g).machine) mine, total (fun g => (portion g).water) mine,
        total (fun g => (portion g).wearCents) mine, total (fun g => (portion g).disposal) mine,
        min 4294967295 l.cents⟩) ∧
    e.total = min 4294967295 (e.lines.map fun l => l.machine + l.water + l.wear + l.disposal + l.material).sum ∧
    ∀ q t, IsLeast { n : Nat | q * t ≤ n * 60 } (expectedWater q t))

/-- R64, R65, R6, R68: START PLAN. Refused in the order of its checks; otherwise the staged plan becomes the active
one with its running fields set and the tag carried on, its slab CUTTING with a store write, the staged slot EMPTY,
the slot RUNNING and the water share unit told, and the first segment considered for issue. That the resume point is absent
and the actual total 0 is the model's reading (log entry 22): R65 names neither. -/
def Obligations.StartPlanMovesThePlan : Prop :=
  ∀ s : State, ready .startPlan s →
    (∀ why, firstRefusal (startPlanTable s) = some why → exec .startPlan s = .next (launchWrite (refusedBy 0x0C why s))) ∧
    (∀ p, firstRefusal (startPlanTable s) = none → s.staged = .valid p →
      exec .startPlan s = .next (launchWrite (issuePlan (tellWater (setSlabState p.slab .cutting
        { acceptedBy 0x0C s with
          staged := .empty
          active := { state := .running, plan := p, order := none, resume := none, tag := s.active.tag, actual := 0
                      overrun := none, stopWait := none, pending := ⟨false, false, false, false, false⟩
                      fault := none, nextSeg := 0, faultCounts := List.replicate p.segments.length 0
                      charged := List.replicate p.segments.length false } })))))

/-! ### Running a plan (04) -/

/-- R69, R70, R68, R96, R99, R100: the issue. With E below Qmin, or else V at or above the hard limit, the cause is
added, the plan goes PAUSED and no tag is spent; otherwise the tag advances, the order is made for the next segment
(RESUME from a resume point, NEW otherwise), the resume point and the fault record are cleared, the overrun timer runs
for 4 × Texp + 300 tenths, and SEGMENT ORDER is handed. -/
def Obligations.IssuePausesOrOrders : Prop :=
  ∀ s : State,
    let g := s.active.plan.segments.getD s.active.nextSeg default
    let start := s.active.resume.getD g.start
    let c := contentsOf s s.active.plan.slab
    let cfg := s.settings.cfg
    let depth := effectiveDepth c.thickness cfg.overcut g
    let kind : OrderKind := if s.active.resume.isSome then .resume else .new
    (s.water.effective < cfg.qmin → issuePlan s =
      setActiveState .paused (addCause .waterShort s.active.nextSeg kind start s)) ∧
    (cfg.qmin ≤ s.water.effective → cfg.hardLimit ≤ s.sump.volume → issuePlan s =
      setActiveState .paused (addCause .sumpFull s.active.nextSeg kind start s)) ∧
    (∀ f, feedLimit cfg (baseFeed cfg depth c.cls) s.water.effective = some f → s.sump.volume < cfg.hardLimit →
      let length := pathLength g.kind start g.stop
      let texp := expectedTime length f
      let o : Order :=
        { tag := (s.active.tag + 1) % 256, kind := kind, segment := s.active.nextSeg, start := start, stop := g.stop
          ordered := length, depth := depth, expected := texp, feed := f, water := s.water.effective
          held := false, stopped := false }
      issuePlan s = orderFrame (.segmentOrder o g.bevel) { s with active := { s.active with
        order := some o, tag := o.tag, resume := none, fault := none, overrun := some ((4 * texp + 300) * 100) } }) ∧
    (∀ f length, 0 < f → IsLeast { n : Nat | length * 600 ≤ n * f } (expectedTime length f))

/-- R81, R82: a cause added joins the pending set, opens a fault record when none is open, and leaves an open one as
it stands; FAULT is handed with the record and the whole set. R83, R85: when a removal leaves the set of a PAUSED plan
empty, the plan goes RUNNING, the water share unit is told, and the next segment is considered for issue; any other change
of the set is told the water share unit alone. -/
def Obligations.AddedCauseOpensOneRecord : Prop :=
  (∀ (p : Pending) (s : State),
    let u : State := { s with active := { s.active with pending := p } }
    (s.active.state = .paused → p = ⟨false, false, false, false, false⟩ →
      setPending p s = issuePlan (tellWater { u with active := { u.active with state := .running } })) ∧
    (s.active.state ≠ .paused ∨ p ≠ ⟨false, false, false, false, false⟩ → setPending p s = tellWater u)) ∧
  ∀ (cause : Cause) (segment : Nat) (kind : OrderKind) (reached : Point) (s : State),
    let r : FaultRecord := s.active.fault.getD
      { cls := .fault, cause := cause, prior := none, plan := s.active.plan.number, segment := segment, kind := kind
        reached := reached
        origin := if cause = .waterShort ∨ cause = .sumpFull ∨ cause = .overrun then .external else .machine }
    let p := s.active.pending
    let set : Pending :=
      ⟨p.waterShort || cause == .waterShort, p.sumpFull || cause == .sumpFull, p.bladeStall || cause == .bladeStall,
        p.operatorStop || cause == .operatorStop, p.machinePause || cause == .machinePause⟩
    addCause cause segment kind reached s =
      report (.fault r set) { s with active := { s.active with pending := set, fault := some r } }

/-- R84, R85, R111: CONTINUE is refused unless the plan is PAUSED with a host cause pending; otherwise every host
cause leaves the set, and the plan resumes when the set is then empty, the water share unit being told either way. -/
def Obligations.ContinueRemovesHostCauses : Prop :=
  ∀ s : State, ready .continuePlan s →
    let p := s.active.pending
    let host := p.bladeStall || p.operatorStop || p.machinePause
    let rest : State := { acceptedBy 0x0E s with active := { s.active with
      pending := ⟨p.waterShort, p.sumpFull, false, false, false⟩ } }
    (s.active.state ≠ .paused ∨ host = false →
      exec .continuePlan s = .next (launchWrite (refusedBy 0x0E .state s))) ∧
    (s.active.state = .paused → host = true → (p.waterShort = true ∨ p.sumpFull = true) →
      exec .continuePlan s = .next (launchWrite (tellWater rest))) ∧
    (s.active.state = .paused → host = true → p.waterShort = false → p.sumpFull = false →
      exec .continuePlan s = .next (launchWrite (issuePlan (tellWater
        { rest with active := { rest.active with state := .running } }))))

/-- R86, R87, R82, R111: ABORT PLAN is refused with NO PLAN for an EMPTY or DONE slot and with STATE in ENDING and
ABORTED; it aborts a PAUSED plan at once; in RUNNING it hands STOP ORDER, sets the stopped flag, stops the overrun
timer, starts the stop wait at 10 s and takes the plan to ENDING with a class ABORT record. The overrun timer's expiry
does the same to a RUNNING plan with cause OVERRUN; that the expiry is taken wherever the timer runs is the model's choice
(log entry 6). -/
def Obligations.AbortAndOverrunStopTheOrder : Prop :=
  ∀ s : State,
    let record (cause : Cause) (origin : Origin) (o : Order) : FaultRecord :=
      match s.active.fault with
      | some r => { r with cls := .abort, cause := cause, prior := some r.cause, plan := s.active.plan.number
                           origin := origin }
      | none => ⟨.abort, cause, none, s.active.plan.number, s.active.nextSeg, o.kind, o.start, origin⟩
    let stopped (cause : Cause) (origin : Origin) (o : Order) (u : State) : State :=
      let v := orderFrame (.stopOrder o.tag o.segment) u
      setActiveState .ending { v with active := { v.active with
        order := some { o with stopped := true }, overrun := none, stopWait := some 10000
        fault := some (record cause origin o) } }
    (ready .abortPlan s →
      (s.active.state = .empty ∨ s.active.state = .done →
        exec .abortPlan s = .next (launchWrite (refusedBy 0x0D .noPlan s))) ∧
      (s.active.state = .ending ∨ s.active.state = .aborted →
        exec .abortPlan s = .next (launchWrite (refusedBy 0x0D .state s))) ∧
      (∀ r, s.active.state = .paused → s.active.fault = some r → exec .abortPlan s =
        .next (launchWrite (abortPlan { r with cls := .abort, cause := .hostAbort, prior := some r.cause
                                               plan := s.active.plan.number, origin := .machine }
          (acceptedBy 0x0D s)))) ∧
      (∀ o, s.active.state = .running → s.active.order = some o → exec .abortPlan s =
        .next (launchWrite (stopped .hostAbort .machine o (acceptedBy 0x0D s))))) ∧
    (∀ o, s.active.overrun.isSome = true → s.active.state = .running → s.active.order = some o →
      exec .overrunExpiry s = .next (stopped .overrun .external o
        { s with active := { s.active with overrun := none } }))

/-- R89, R6, R10, R111, R123: going ABORTED, by whatever cause: the pending set is emptied, the record kept, the slab
made CUT OPEN with a store write, the reservations subtracted, counts held with no order in flight moved to the idle
tallies, the water share unit told, and PLAN ABORTED handed with the number of segments charged and the actual total.
-/
def Obligations.AbortedPlanLetsGo : Prop :=
  ∀ (record : FaultRecord) (s : State), ∃ u v : State, abortPlan record s =
      report (.planAborted record s.active.nextSeg (s.active.charged.count true) s.active.actual) (tellWater u) ∧
    v = setSlabState s.active.plan.slab .cutOpen s ∧
    u.active = { s.active with
      state := .aborted, pending := ⟨false, false, false, false, false⟩, fault := some record
      plan := { s.active.plan with reservations := 0 } } ∧
    u.register = { v.register with reservations := v.register.reservations - s.active.plan.reservations } ∧
    u.store = v.store ∧
    u.water = (if s.active.order = none then
      { s.water with
        idleRecycled := min max32 (s.water.idleRecycled + s.water.segRecycled)
        idleFresh := min max32 (s.water.idleFresh + s.water.segFresh), segRecycled := 0, segFresh := 0 } else s.water) ∧
    u = { s with active := u.active, register := u.register, store := u.store, water := u.water }

/-- R74, R68, R173: the three segment reports. With no order in flight, or another tag, the report is refused with
STALE TAG (a SEGMENT FAULT of no known cause with RANGE first) and changes nothing. A matching report ends the order:
the unread order frames of its tag are withdrawn, the reply admitted, the record discarded and both timers stopped;
the portion is charged on the clamped length, and the slot judged. -/
def Obligations.SegmentReportsEndTheOrder : Prop :=
  ∀ (tag length time code : Nat) (s : State),
    let matched (o : Order) : Prop := s.active.order = some o ∧ o.tag = tag
    let unmatched : Prop := ∀ o, s.active.order = some o → o.tag ≠ tag
    let ended (command : Nat) : State := { s with
      host := { s.host with
        inbound := s.host.inbound.tail, taken := (s.host.inbound.take 1).map inboundSize ++ s.host.taken
        outbound := (s.host.outbound.filter fun f => f.begun || f.report.orderTag != some tag) ++
          [⟨.accepted command .bare, false⟩] }
      active := { s.active with order := none, overrun := none, stopWait := none } }
    (ready (.segmentDone tag length time) s →
      (unmatched → exec (.segmentDone tag length time) s = .next (launchWrite (refusedBy 0x0F .staleTag s))) ∧
      (∀ o, matched o → exec (.segmentDone tag length time) s = .next (launchWrite
        (afterDone o (min length o.ordered) (chargeReport o true length time (ended 0x0F)))))) ∧
    (ready (.segmentPaused tag length time) s →
      (unmatched → exec (.segmentPaused tag length time) s = .next (launchWrite (refusedBy 0x10 .staleTag s))) ∧
      (∀ o, matched o → exec (.segmentPaused tag length time) s = .next (launchWrite
        (afterPaused o (min length o.ordered) (chargeReport o false length time (ended 0x10)))))) ∧
    (ready (.segmentFault tag code length time) s →
      (code = 0 ∨ 4 < code →
        exec (.segmentFault tag code length time) s = .next (launchWrite (refusedBy 0x11 .range s))) ∧
      (1 ≤ code → code ≤ 4 → unmatched →
        exec (.segmentFault tag code length time) s = .next (launchWrite (refusedBy 0x11 .staleTag s))) ∧
      (∀ o cause, causeOfCode code = some cause → matched o →
        exec (.segmentFault tag code length time) s = .next (launchWrite
          (afterFault cause o (min length o.ordered) (chargeReport o false length time (ended 0x11))))))

/-- R74, R80, R82, R101 to R105: the charge of a report: LENGTH MISMATCH trapped above the ordered length, or more
than 2 mm short of it for a DONE; the reached point of a held order's record filled; the portion, worked on the
clamped length, posted to the job of the segment's piece, its solids added, its cost added to the actual total, the
segment's flag set, and FRESH USED trapped when the fresh meter counted. The model's choices: the reached point is filled
in RUNNING alone (log entry 32), and the LENGTH MISMATCH trap names the plan and no segment (log entry 19). R96, R97, R101:
the effective depth, the path length, the point reached and the in-stone length by their rules; R103, R105: the solids and
the four cost items, each rounded up on its own, and the cost their sum. -/
def Obligations.ReportIsChargedAsOnePortion : Prop :=
  (∀ (o : Order) (short : Bool) (length time : Nat) (s : State),
    let clamped := min length o.ordered
    let g := s.active.plan.segments.getD o.segment default
    let a : State :=
      if o.ordered < length ∨ (short = true ∧ length + 2 < o.ordered) then
        report (.trap (.lengthMismatch o.tag length o.ordered) s.active.plan.number none) s
      else s
    let b : State := if s.active.state = .running ∧ o.held = true then
        { a with active := { a.active with fault := a.active.fault.map fun r =>
          { r with reached := movedToward g.kind o.start o.stop clamped } } }
      else a
    let c := contentsOf s s.active.plan.slab
    let stone := inStoneLength c g.kind o.start (movedToward g.kind o.start o.stop clamped)
    let p := portionOf s.settings.cfg c.cls o.depth stone time
      ((s.water.segRecycled * 10 + s.charge.recycled) / s.settings.kRecycled)
      ((s.water.segFresh * 10 + s.charge.fresh) / s.settings.kFresh)
    let job := (s.active.plan.pieces.getD g.piece default).job
    let d := addSolids p.solids (postJob job (JobRecord.addPortion p (!s.active.charged.getD o.segment false))
      { b with
        charge := ⟨(s.water.segRecycled * 10 + s.charge.recycled) % s.settings.kRecycled,
          (s.water.segFresh * 10 + s.charge.fresh) % s.settings.kFresh⟩
        water := { s.water with segRecycled := 0, segFresh := 0 } })
    let e : State := { d with active := { d.active with
      actual := min max32 (s.active.actual + p.cost), charged := s.active.charged.set o.segment true } }
    chargeReport o short length time s =
      if 0 < s.water.segFresh then report (.trap (.freshUsed p.fresh) s.active.plan.number (some o.segment)) e else e) ∧
  (∀ (thickness overcut : Nat) (g : Segment),
    let d := g.depth.getD (thickness + overcut)
    (g.bevel = false → effectiveDepth thickness overcut g = d) ∧
    (g.bevel = true → IsLeast { n : Nat | d * 1414 ≤ n * 1000 } (effectiveDepth thickness overcut g))) ∧
  (∀ (c : SlabContents) (a b : Point) (length : Nat),
    let overlap (lo hi : Int) (limit : Nat) : Int := max 0 (min hi limit - max lo 0)
    (pathLength .rip a b : Int) = |b.x - a.x| ∧ (pathLength .cross a b : Int) = |b.y - a.y| ∧
    movedToward .rip a b length = ⟨if a.x ≤ b.x then a.x + length else a.x - length, a.y⟩ ∧
    movedToward .cross a b length = ⟨a.x, if a.y ≤ b.y then a.y + length else a.y - length⟩ ∧
    (0 ≤ a.y → a.y ≤ c.height → (inStoneLength c .rip a b : Int) = overlap (min a.x b.x) (max a.x b.x) c.width) ∧
    (a.y < 0 ∨ (c.height : Int) < a.y → inStoneLength c .rip a b = 0) ∧
    (0 ≤ a.x → a.x ≤ c.width → (inStoneLength c .cross a b : Int) = overlap (min a.y b.y) (max a.y b.y) c.height) ∧
    (a.x < 0 ∨ (c.width : Int) < a.x → inStoneLength c .cross a b = 0)) ∧
  (∀ (cfg : ConfigFields) (cls depth stone time recycled fresh : Nat), ∃ solids machine water disposal : Nat,
    let wear := wearUnits cfg cls stone depth
    IsLeast { v : Nat | stone * cfg.kerf * depth ≤ v * 1000 } solids ∧
    IsLeast { n : Nat | time * cfg.machineRate ≤ n * 36000 } machine ∧
    IsLeast { n : Nat | recycled * cfg.priceRecycled + fresh * cfg.priceFresh ≤ n * 1000 } water ∧
    IsLeast { n : Nat | solids * cfg.priceDisposal ≤ n * 1000 } disposal ∧
    portionOf cfg cls depth stone time recycled fresh =
      { inStone := min 4294967295 stone, time := min 4294967295 time, recycled := min 4294967295 recycled
        fresh := min 4294967295 fresh, wear := min 4294967295 wear, solids := min 4294967295 solids
        machine := min 4294967295 machine, water := min 4294967295 water
        wearCents := min 4294967295 (wear * cfg.priceWear), disposal := min 4294967295 disposal
        cost := min 4294967295 (machine + water + wear * cfg.priceWear + disposal) })

/-- R75, R76, R88, R90: the slot after a charged DONE or PAUSED. In RUNNING a DONE advances the index; the plan
completes when that was the last segment, goes PAUSED when a cause is pending, and otherwise issues. A PAUSED short of
the ordered length records the resume point, one at it advances; a held order then goes on as after a DONE, and one
not held adds MACHINE PAUSE and goes PAUSED. In ENDING the plan goes ABORTED with its record, the index having
advanced for a finished segment. In ABORTED, which muting can leave with an order in flight, nothing follows: the model's
choice (log entry 24). -/
def Obligations.DoneAndPausedMoveThePlan : Prop :=
  ∀ (o : Order) (length : Nat) (s : State),
    let next : State := { s with active := { s.active with nextSeg := s.active.nextSeg + 1 } }
    let last := s.active.plan.segments.length ≤ s.active.nextSeg + 1
    let goesOn (u : State) : State :=
      if s.active.pending = ⟨false, false, false, false, false⟩ then issuePlan u else setActiveState .paused u
    let point := movedToward (s.active.plan.segments.getD o.segment default).kind o.start o.stop length
    let resumed : State := { s with active := { s.active with resume := some point } }
    (s.active.state = .running → afterDone o length s = if last then completePlan next else goesOn next) ∧
    (s.active.state = .running → length < o.ordered → s.active.nextSeg < s.active.plan.segments.length →
      afterPaused o length s =
        if o.held then goesOn resumed
        else setActiveState .paused (addCause .machinePause s.active.nextSeg o.kind point resumed)) ∧
    (s.active.state = .running → o.ordered ≤ length → afterPaused o length s =
        if last then completePlan next
        else if o.held then goesOn next
        else setActiveState .paused (addCause .machinePause (s.active.nextSeg + 1) o.kind point next)) ∧
    (∀ r, s.active.state = .ending → s.active.fault = some r →
      afterDone o length s = abortPlan r next ∧
      afterPaused o length s = abortPlan r (if length < o.ordered then s else next)) ∧
    (s.active.state = .aborted → afterDone o length s = s ∧ afterPaused o length s = s)

/-- R77, R78, R79, R82: the slot after a charged FAULT. AXIS LIMIT and BLADE BROKEN abort a RUNNING plan. BLADE STALL
and OPERATOR STOP raise the segment's fault count, saturating at 3; a RESUME order with no progress then aborts with
DOUBLE FAULT, a third fault with REPEATED FAULT; otherwise the plan completes when the last segment is finished, or
goes PAUSED with the cause. The record keeps an earlier cause as the prior one. In ENDING the plan goes ABORTED with
its record, the index standing (log entry 45), and in ABORTED nothing follows (log entry 24): both the model's choice. -/
def Obligations.FaultReportsPauseOrAbort : Prop :=
  ∀ (cause : Cause) (o : Order) (length : Nat) (s : State),
    let g := s.active.plan.segments.getD o.segment default
    let point := movedToward g.kind o.start o.stop length
    let count := min 3 (s.active.faultCounts.getD o.segment 0 + 1)
    let counted : State := { s with active := { s.active with
      faultCounts := s.active.faultCounts.set o.segment count } }
    let record (c : Cause) (prior : Option Cause) : FaultRecord :=
      ⟨.abort, c, if s.active.fault.isSome then s.active.fault.map (·.cause) else prior, s.active.plan.number, o.segment,
        o.kind, point, .machine⟩
    (s.active.state = .running → (cause = .axisLimit ∨ cause = .bladeBroken) →
      afterFault cause o length s = abortPlan (record cause none) s) ∧
    (s.active.state = .running → (cause = .bladeStall ∨ cause = .operatorStop) →
      o.segment < s.active.faultCounts.length → s.active.nextSeg < s.active.plan.segments.length →
      (o.kind = .resume → length = 0 →
        afterFault cause o length s = abortPlan (record .doubleFault (some cause)) counted) ∧
      ((o.kind = .new ∨ 0 < length) → count = 3 →
        afterFault cause o length s = abortPlan (record .repeatedFault (some cause)) counted) ∧
      ((o.kind = .new ∨ 0 < length) → count < 3 → length < o.ordered →
        afterFault cause o length s = setActiveState .paused (addCause cause o.segment o.kind point
          { counted with active := { counted.active with resume := some point } })) ∧
      ((o.kind = .new ∨ 0 < length) → count < 3 → o.ordered ≤ length →
        let next : State := { counted with active := { counted.active with nextSeg := s.active.nextSeg + 1 } }
        afterFault cause o length s =
          if s.active.plan.segments.length ≤ s.active.nextSeg + 1 then completePlan next
          else setActiveState .paused (addCause cause o.segment o.kind point next))) ∧
    (∀ r, s.active.state = .ending → s.active.fault = some r → afterFault cause o length s = abortPlan r s) ∧
    (s.active.state = .aborted → afterFault cause o length s = s)

/-- R91, R17, R144, R6, R15, R37, R141: completion. The slab's area is shared and each job's material posted, the
cents added to the actual total; the remnants are made and announced; the parent goes GONE and is retired; the claim
and the in-use counts are let go; the slot goes DONE; PLAN COMPLETE and its lines are handed, and COST OVER ESTIMATE
trapped when four times the actual total exceeds five times the estimate. A remnant takes the next id, one reservation
and the lowest free place, with the parent's class, thickness and price and the parts of its defects that the closed
rectangles share. That an open fault record stands in the DONE slot is the model's choice (log entry 23), and so is that
the trap names the plan and no segment (log entry 19). -/
def Obligations.CompletedPlanSettlesTheSlab : Prop :=
  (∀ s : State,
    let p := s.active.plan
    let c := contentsOf s p.slab
    let lines := apportion c p.pieces (p.remnants.map fun r => r.w * r.h / 100).sum
    let a := lines.foldl (fun u l => postJob l.job (JobRecord.addMaterial l.area l.cents) u) s
    let actual := lines.foldl (fun t l => min max32 (t + l.cents)) s.active.actual
    let made := makeRemnants p.slab c p.remnants { a with active := { s.active with actual := actual } }
    let b := made.1.foldl (fun u id => announceSlab id u) made.2
    let d := releaseClaim p.slab (announce (.retire p.slab 0) (setSlabState p.slab .gone b))
    let e := releaseJobs (distinctJobs p.pieces) d
    let f := setActiveState .done { e with active := { e.active with
      pending := ⟨false, false, false, false, false⟩
      plan := { p with reservations := p.reservations - p.remnants.length } } }
    let g := reports (.planComplete p.number p.slab made.1 actual lines.length :: lines.map (.completeLine p.number)) f
    let estimated := p.estimate.elim 0 (·.total)
    completePlan s =
      if 5 * estimated < 4 * actual then report (.trap (.costOverEstimate actual estimated) p.number none) g else g) ∧
  (∀ (parent : Nat) (c : SlabContents) (r : Rect) (i : Nat) (s : State), lowestFree s = some i →
    ∃ t : State, makeRemnant parent c r s = (idToIssue s, t) ∧
      t = { s with register := t.register, store := t.store } ∧
      t.register = { s.register with
        serial := nextSerial (serialToIssue s), heard := min max32 (s.register.heard + 1)
        reservations := s.register.reservations - 1
        places := s.register.places.set i (some
          { id := idToIssue s
            contents := ⟨c.cls, c.thickness, r.w, r.h, c.price, some parent, c.defects.filterMap (carriedDefect r)⟩
            state := .stock, holder := none, heard := min max32 (s.register.heard + 1) }) } ∧
      t.store = (queueWrite (.slab i) (queueWrite .serial s)).store) ∧
  (∀ (r : Rect) (d : Defect),
    (carriedDefect r d = none ↔ d.x + d.w < r.x ∨ r.x + r.w < d.x ∨ d.y + d.h < r.y ∨ r.y + r.h < d.y) ∧
    (∀ q, carriedDefect r d = some q → q.kind = d.kind ∧ r.x + q.x = max d.x r.x ∧ r.y + q.y = max d.y r.y ∧
      r.x + q.x + q.w = min (d.x + d.w) (r.x + r.w) ∧ r.y + q.y + q.h = min (d.y + d.h) (r.y + r.h)))

/-- R93, R94, R110, R171: CLOSE SLAB. Refused in the order of its checks; RETURN answers with no line and makes the
slab STOCK; SCRAP answers with its lines, five a frame, posts them, makes the slab GONE, retires it and makes a VALID
plan on it STALE; either way the claim is released and an ABORTED slot on the slab emptied, its tag kept. The lines
are the whole slab's apportionment, or one line for the job named. -/
def Obligations.CloseSlabSettlesTheSlab : Prop :=
  ∀ (slab mode job : Nat) (s : State), ready (.closeSlab slab mode job) s →
    let aborted := abortedHere slab s
    let c := contentsOf s slab
    let lines : List ShareLine :=
      if aborted then apportion c s.active.plan.pieces 0
      else [⟨job, c.width * c.height / 100, materialCents c.price (c.width * c.height / 100)⟩]
    let cleared (u : State) : State :=
      if aborted then
        { releaseJobs (distinctJobs s.active.plan.pieces) u with active := { Active.reset with tag := s.active.tag } }
      else u
    (∀ why, firstRefusal (closeSlabTable slab mode job s) = some why →
      exec (.closeSlab slab mode job) s = .next (launchWrite (refusedBy 0x12 why s))) ∧
    (firstRefusal (closeSlabTable slab mode job s) = none → mode = 1 → exec (.closeSlab slab mode job) s = .next (launchWrite
      (cleared (releaseClaim slab (setSlabState slab .stock
        (answered (.accepted 0x12 (.settlement (some 0) [])) s)))))) ∧
    (firstRefusal (closeSlabTable slab mode job s) = none → mode = 0 → lines.length ≤ 5 → exec (.closeSlab slab mode job) s = .next (launchWrite
      (cleared (releaseClaim slab (stalePlan slab .gone (announce (.retire slab 1) (setSlabState slab .gone
        (lines.foldl (fun u l => postJob l.job (JobRecord.addMaterial l.area l.cents) u)
          (answered (.accepted 0x12 (.settlement (some lines.length) lines)) s))))))))) ∧
    (firstRefusal (closeSlabTable slab mode job s) = none → mode = 0 → 5 < lines.length → exec (.closeSlab slab mode job) s = .next (launchWrite
      (cleared (releaseClaim slab (stalePlan slab .gone (announce (.retire slab 1) (setSlabState slab .gone
        (lines.foldl (fun u l => postJob l.job (JobRecord.addMaterial l.area l.cents) u)
          (reports ((([(lines.drop 5).take 5, (lines.drop 10).take 5, (lines.drop 15).take 5]).filter (!·.isEmpty)).map
              fun part => Report.accepted 0x12 (.settlement none part))
            (answered (.accepted 0x12 (.settlement (some lines.length) (lines.take 5))) s))))))))))

/-! ### The job cost table (08) -/

/-- R138, R140, R137, R149: OPEN JOB makes an OPEN record of zeros in the lowest free place; CLOSE JOB closes an OPEN
record of no use; FREE JOB removes a CLOSED one. Each is refused in the order of its checks, and queues the store
write of its place. -/
def Obligations.JobCommandsOpenCloseAndFree : Prop :=
  (∀ (job : Nat) (estimate : Option Nat) (s : State), ready (.openJob job estimate) s →
    (∀ why, firstRefusal (openJobTable job s) = some why →
      exec (.openJob job estimate) s = .next (launchWrite (refusedBy 0x13 why s))) ∧
    (∀ i, 1 ≤ job → job ≤ 65535 → findJob s job = none → s.jobs[i]? = some none →
      (∀ k < i, s.jobs[k]? ≠ some none) →
      exec (.openJob job estimate) s = .next (launchWrite (queueWrite (.job i) { acceptedBy 0x13 s with
        jobs := s.jobs.set i (some
          { number := job, closed := false, estimate := estimate, inUse := 0, segments := 0, inStone := 0, time := 0
            recycled := 0, fresh := 0, wear := 0, solids := 0, area := 0, machine := 0, water := 0, wearCents := 0
            disposal := 0, material := 0, total := 0, overEstimate := false, saturated := false
            damaged := false }) })))) ∧
  (∀ (job : Nat) (s : State), ready (.closeJob job) s →
    (∀ why, firstRefusal (closeJobTable job s) = some why →
      exec (.closeJob job) s = .next (launchWrite (refusedBy 0x14 why s))) ∧
    (∀ j i, 1 ≤ job → job ≤ 65535 → findJob s job = some j → j.closed = false → j.inUse = 0 →
      jobPlace s job = some i → exec (.closeJob job) s = .next (launchWrite (queueWrite (.job i) { acceptedBy 0x14 s with
        jobs := s.jobs.map (Option.map fun k => if k.number = job then { k with closed := true } else k) })))) ∧
  (∀ (job : Nat) (s : State), ready (.freeJob job) s →
    (∀ why, firstRefusal (freeJobTable job s) = some why →
      exec (.freeJob job) s = .next (launchWrite (refusedBy 0x15 why s))) ∧
    (∀ j i, job ≠ 0 → findJob s job = some j → j.closed = true → jobPlace s job = some i →
      exec (.freeJob job) s = .next (launchWrite (queueWrite (.job i) { acceptedBy 0x15 s with
        jobs := s.jobs.map fun o => o.filter (·.number != job) }))))

/-- R143 to R149: a posting adds, each addition saturating, to the record of its job alone; the total is worked afresh
from the five components; the first count newly at its maximum sets the saturated flag and is trapped, a total newly
above the estimate sets the other flag and is trapped after it; the record's store write is queued. That both traps carry
plan number 0 and no segment is the model's choice (log entry 19). -/
def Obligations.PostingAddsToOneJobRecord : Prop :=
  ∀ (number : Nat) (s : State) (old : JobRecord) (i : Nat), findJob s number = some old → jobPlace s number = some i →
    let plus (a b : Nat) : Nat := min 4294967295 (a + b)
    let posted (added new : JobRecord) (t : State) : Prop :=
      new = { added with
        total := min 4294967295 (added.machine + added.water + added.wearCents + added.disposal + added.material)
        saturated := old.saturated || (firstSaturated 1 old.counts new.counts).isSome
        overEstimate := old.overEstimate || new.estimate.any fun e => decide (e < new.total) } ∧
      t = { s with jobs := t.jobs, store := t.store, host := t.host } ∧
      t.jobs = s.jobs.map (Option.map fun j => if j.number = number then new else j) ∧
      t.store = (queueWrite (.job i) s).store ∧
      t.host = (reports
        ((if old.saturated then [] else (firstSaturated 1 old.counts new.counts).toList.map fun k =>
            Report.trap (.saturated number k) 0 none) ++
          (if old.overEstimate then [] else (new.estimate.filter fun e => decide (e < new.total)).toList.map fun e =>
            Report.trap (.jobOverEstimate number e new.total) 0 none)) s).host
    (∀ (p : Portion) (first : Bool), ∃ new,
      posted { old with
        segments := plus old.segments (if first then 1 else 0), inStone := plus old.inStone p.inStone
        time := plus old.time p.time, recycled := plus old.recycled p.recycled, fresh := plus old.fresh p.fresh
        wear := plus old.wear p.wear, solids := plus old.solids p.solids, machine := plus old.machine p.machine
        water := plus old.water p.water, wearCents := plus old.wearCents p.wearCents
        disposal := plus old.disposal p.disposal } new (postJob number (JobRecord.addPortion p first) s)) ∧
    (∀ area cents : Nat, ∃ new,
      posted { old with area := plus old.area area, material := plus old.material cents } new
        (postJob number (JobRecord.addMaterial area cents) s))

/-! ### The sump account (07) -/

/-- R126 to R135, R39: PURGE NOW is refused in the order of its checks and otherwise asks for the press; the ask makes
a press entry and hands its first POLL (in its place in a transmit queue with room; R162 and R28 otherwise), or is refused at once and waits 30 s. In WANT PRESS the outcome GRANTED takes the
snapshot, starts the purge timer and goes PURGING, MUTED goes IDLE, and any other waits 30 s; in any other state an outcome
does nothing. Solids are added to V up to 999,999, the write queued where V changes, and the threshold tested in IDLE. A press-done edge in PURGING takes the
snapshot off V, releases the press, hands PURGE REPORT, removes SUMP FULL where V has fallen below the hard limit, and
goes IDLE or asks again; in any other state it does nothing. The purge timer's expiry releases the press, traps PURGE
TIMEOUT and waits; the retry timer's expiry asks again at the threshold while ACTIVE, or goes IDLE. A refused request
waiting 30 s, the rounding of the time reported, the plan number 0 and absent segment of the trap, and that an expiry is taken
wherever its timer runs are the model's choices (log entries 21, 7, 19, 6). -/
def Obligations.PurgeCycleRunsAsGiven : Prop :=
  ∀ s : State,
    let cfg := s.settings.cfg
    let press := 65528 + cfg.press
    let waits (u : State) : State := { u with sump := { u.sump with state := .retryWait, retry := some 30000 } }
    (ready .purgeNow s →
      (∀ why, firstRefusal (purgeNowTable s) = some why →
        exec .purgeNow s = .next (launchWrite (refusedBy 0x17 why s))) ∧
      (s.floor.attach = .active → (s.sump.state = .idle ∨ s.sump.state = .retryWait) → 0 < s.sump.volume →
        exec .purgeNow s = .next (launchWrite (wantPress
          { acceptedBy 0x17 s with sump := { s.sump with retry := none } })))) ∧
    (s.floor.attach = .active →
      let asked : State := { s with sump := { s.sump with state := .wantPress } }
      ((claimOn s press).isSome = true ∨ 8 ≤ s.claims.entries.length → wantPress s = waits asked) ∧
      (claimOn s press = none → s.claims.entries.length < 8 →
        (∀ e ∈ s.claims.entries, e.handle ≠ s.claims.nextHandle) →
        let entered (polls : Nat) : State := { asked with claims := { s.claims with
          entries := s.claims.entries ++ [⟨s.claims.nextHandle, press, .press, .polling, polls, .unsent, none⟩]
          nextHandle := s.claims.nextHandle + 1 } }
        wantPress s = handPoll 4 s.claims.nextHandle (entered 0) ∧
        (s.floor.queue.length < 16 →
          wantPress s = handed (.poll press) (some s.claims.nextHandle) (entered 1)))) ∧
    (∀ result, s.sump.state ≠ .wantPress → pressOutcome result s = s) ∧
    (s.sump.state = .wantPress →
      pressOutcome .granted s = { s with sump := { s.sump with
        state := .purging, snapshot := s.sump.volume, purge := some (cfg.purgeTime * 1000) } } ∧
      pressOutcome .muted s = { s with sump := { s.sump with state := .idle } } ∧
      ∀ result, result = .heldElsewhere ∨ result = .claimLost ∨ result = .lineNoisy →
        pressOutcome result s = waits s) ∧
    (∀ solids, addSolids solids s = testThreshold (
      if min 999999 (s.sump.volume + solids) = s.sump.volume then s
      else queueWrite .sump { s with sump := { s.sump with volume := min 999999 (s.sump.volume + solids) } })) ∧
    (testThreshold s = if s.sump.state = .idle ∧ cfg.threshold ≤ s.sump.volume ∧ s.floor.attach = .active then
      wantPress s else s) ∧
    (s.sump.state ≠ .purging → exec .pressDone s = .next s) ∧
    (s.sump.state = .purging →
      let v := s.sump.volume - s.sump.snapshot
      let a := releaseClaim press (queueWrite .sump { s with sump := { s.sump with purge := none, volume := v } })
      let b := report (.purgeReport cfg.press s.sump.snapshot v
        (tenthsOf (cfg.purgeTime * 1000 - s.sump.purge.getD 0))) a
      let d := if cfg.hardLimit ≤ s.sump.volume ∧ v < cfg.hardLimit ∧ s.active.pending.sumpFull = true then
        setPending { s.active.pending with sumpFull := false } b else b
      let e : State := { d with sump := { d.sump with state := .idle } }
      exec .pressDone s = .next (launchWrite
        (if cfg.threshold ≤ v ∧ s.floor.attach = .active then wantPress e else e))) ∧
    (s.sump.state = .purging → s.sump.purge.isSome = true → exec .purgeTimerExpiry s = .next (waits
      (report (.trap (.purgeTimeout cfg.press s.sump.snapshot s.sump.volume) 0 none)
        (releaseClaim press { s with sump := { s.sump with purge := none } })))) ∧
    (s.sump.state = .retryWait → s.sump.retry.isSome = true →
      let t : State := { s with sump := { s.sump with retry := none } }
      exec .retryTimerExpiry s = .next (if cfg.threshold ≤ s.sump.volume ∧ s.floor.attach = .active then wantPress t
        else { t with sump := { t.sump with state := .idle } }))

/-! ### The station (09, 11) -/

/-- R163, R180, R182, R185, R62, R112, R129: JOIN, SET STATION, WRITE CONFIG, WRITE CALIBRATION and STORE ERASE, each
refused in the order of its checks; and the end of the listen-in, which hands HELLO, goes ACTIVE, hands DEMAND and
tests the threshold. That this expiry is taken wherever its timer runs is the model's choice (log entry 6). -/
def Obligations.StationCommandsWorkInInert : Prop :=
  ∀ s : State,
    let inert := s.floor.attach = .inert
    (ready .join s →
      (¬ inert ∨ s.station.number = none → exec .join s = .next (launchWrite (refusedBy 0x18 .state s))) ∧
      (inert → s.station.number ≠ none → exec .join s = .next (launchWrite { acceptedBy 0x18 s with
        floor := { s.floor with
          attach := .listening, inStep := false, listenIn := some 2500, drive := none } }))) ∧
    (s.floor.attach = .listening → s.floor.listenIn.isSome = true →
      let a := handNotice (.hello s.settings.cfg.supply s.settings.cfg.rate s.settings.cfg.press) none s
      exec .listenInExpiry s = .next (testThreshold (sendDemand
        { a with floor := { a.floor with attach := .active, listenIn := none } }))) ∧
    (∀ first second number, ready (.setStation first second number) s →
      (∀ why, firstRefusal (setStationTable first second number s) = some why →
        exec (.setStation first second number) s = .next (launchWrite (refusedBy 0x1B why s))) ∧
      (first = 0xA6 → second = 0x3C → number ≤ 30 → inert → 30 < s.station.straps → s.station.setNumber = none →
        exec (.setStation first second number) s = .next (launchWrite
          { answered (.accepted 0x1B (.number number)) s with
            station := { s.station with setNumber := some number } }))) ∧
    (∀ fields, ready (.writeConfig fields) s →
      (¬ inert → exec (.writeConfig fields) s = .next (launchWrite (refusedBy 0x1C .state s))) ∧
      (inert → exec (.writeConfig fields) s = .next (launchWrite (queueWrite .config
        { acceptedBy 0x1C s with store := { s.store with newConfig := some fields } })))) ∧
    (∀ kr kf, ready (.writeCalibration kr kf) s →
      (¬ inert → exec (.writeCalibration kr kf) s = .next (launchWrite (refusedBy 0x1D .state s))) ∧
      (inert → exec (.writeCalibration kr kf) s = .next (launchWrite (queueWrite .calibration
        { acceptedBy 0x1D s with store := { s.store with newCalibration := some (kr, kf) } })))) ∧
    (ready .storeErase s →
      (¬ inert → exec .storeErase s = .next (launchWrite (refusedBy 0x1E .state s))) ∧
      (inert →
        let a := (s.staged.plan?.elim id fun p => stalePlan p.slab .gone) (acceptedBy 0x1E s)
        exec .storeErase s = .next (launchWrite (queueWrite .erase { a with
          register := { a.register with places := s.register.places.map fun _ => none, reservations := 0 }
          jobs := s.jobs.map fun _ => none
          store := { s.store with queue := s.store.queue.filter fun p => match p with
            | .slab _ => false
            | .job _ => false
            | _ => true } }))))

/-! ### The floor line (02, 06, 09) -/

/-- R155, R156, R158, R163, R164, R166, R16, R23, R24, R33, R34, R114: what is heard. With the receiver off nothing
changes. A valid notice from a peer wins a contention with one being sent of lower precedence, whose sender has stopped
driving at the bit it lost, brings the receiver in step, makes the peer PRESENT with its heard timer at 0, works the allotment afresh on a change of presence or a
DEMAND, starts the sweep for a peer that was ABSENT, and is then handed to its owner: here the effect of POLL, CLAIM,
RELEASE and DEMAND. One that bears the station's own number mutes it in LISTENING and ACTIVE, as one step (R41, R90, R112, R136): the
queue is emptied, the claim table empties itself with CLAIM RESULT MUTED for each slab entry not HELD and the holder field
cleared for each that is, a live plan goes ABORTED with cause DUPLICATE STATION and STOP ORDER handed first for a RUNNING one
(that order is log entry 48), the DEMANDs stop, the purge is left, and LINE FAULT is trapped. R7, R34: a holder field is
cleared where it names the station concerned. The model's choices:
contention is judged by precedence (log entry 15); a POLL heard by a receiver out of step has no slot driven (log entry 25);
the muting trap carries kind 0, plan number 0 and no segment (log entries 19 and 20); once muted, a station hands an own-number notice to its owner and no
peer entry changes (log entry 16); a RELEASE of neither a slab nor a press changes nothing more (log entry 42); and a
DEMAND that was being sent and is back beside a newer one makes room for it (log entry 47). -/
def Obligations.HeardNoticesReachTheirOwners : Prop :=
  (∀ (c : Instr) (k : Nat) (s : State), sender c = some k → s.floor.attach = .inert → exec c s = .next s) ∧
  (∀ (c : Instr) (k : Nat) (s : State), sender c = some k → k ≤ 30 → s.station.number = some k →
    (s.floor.attach = .listening ∨ s.floor.attach = .active) →
    let lost := s.floor.queue.any fun e => e.sending && decide (heardPrecedence c < e.notice.kind * 32 + s.own)
    let silent : State := { s with
      floor := { s.floor with
        attach := .muted, queue := [], window := none, listenIn := none, inStep := true, drive := none
        lineOut := if lost then lineAfterLoss (heardPrecedence c) s else s.floor.lineOut }
      claims := { s.claims with entries := [] } }
    let a := s.claims.entries.foldl (fun u e => match e.purpose with
      | .slab job => if e.stage = .held then clearHolder e.resource s.own u
          else report (.claimResult e.resource job .muted none e.polls) u
      | .press => u) silent
    let record (kind : OrderKind) (reached : Point) : FaultRecord := match s.active.fault with
      | some r => { r with cls := .abort, cause := .duplicateStation, prior := some r.cause
                           plan := s.active.plan.number, origin := .machine }
      | none => ⟨.abort, .duplicateStation, none, s.active.plan.number, s.active.nextSeg, kind, reached, .machine⟩
    ∃ t b : State, exec c s = .next (launchWrite t) ∧ mutedAndSilent t ∧ t.floor.listenIn = none ∧ t.floor.drive = none ∧
      t.water.refresh = none ∧ t.sump.state ≠ .purging ∧ t.sump.state ≠ .wantPress ∧
      t.sump.volume = s.sump.volume ∧
      (t.active.state ≠ .running ∧ t.active.state ≠ .paused ∧ t.active.state ≠ .ending) ∧ t.staged = s.staged ∧
      t.peers = s.peers ∧
      (∀ o, s.active.state = .running → s.active.order = some o →
        let v := orderFrame (.stopOrder o.tag o.segment) a
        b = abortPlan (record o.kind o.start) { v with active := { v.active with
          order := some { o with stopped := true }, overrun := none, stopWait := some 10000 } }) ∧
      (∀ o, s.active.state = .ending → s.active.order = some o → b = abortPlan (record o.kind o.start) a) ∧
      (∀ r, s.active.state = .paused → s.active.fault = some r → b = abortPlan (record r.kind r.reached) a) ∧
      (s.active.state = .empty ∨ s.active.state = .done ∨ s.active.state = .aborted → b = a) ∧
      t = report (.trap (.lineFault .duplicateStation 0) 0 none) { b with
        water := { b.water with refresh := none }
        sump := { s.sump with
          state := if s.sump.state = .retryWait then .retryWait else .idle
          purge := if s.sump.state = .purging then none else s.sump.purge } }) ∧
  (∀ (id k : Nat) (s : State), clearHolder id k s = { s with register := { s.register with
    places := s.register.places.map (Option.map fun r =>
      if r.id = id ∧ r.holder = some k then { r with holder := none } else r) } }) ∧
  (∀ (kind k : Nat) (s : State),
    let lost := s.floor.queue.any fun e => e.sending && decide (kind * 32 + k < e.notice.kind * 32 + s.own)
    takeNotice kind k s = { s with floor := { s.floor with
      inStep := true, drive := none
      lineOut := if lost then lineAfterLoss (kind * 32 + k) s else s.floor.lineOut
      queue := if lost then oneDemand (s.floor.queue.map fun e => { e with sending := false }) else s.floor.queue } }) ∧
  (∀ (k resource job value slab reason supply rate press : Nat) (c : SlabContents) (s : State), k ≤ 30 →
    s.station.number = some k → mutedAndSilent s →
    let h : State := { s with floor := { s.floor with inStep := true, drive := none } }
    exec (.pollReceived k resource) s = .next (launchWrite h) ∧
    exec (.claimReceived k resource job) s =
      .next (launchWrite (if isSlabId resource then setHolder resource (some k) h else h)) ∧
    exec (.releaseReceived k resource) s =
      .next (launchWrite (if isSlabId resource then clearHolder resource k h else h)) ∧
    exec (.demandReceived k value) s = .next (launchWrite h) ∧
    exec (.retireReceived k slab reason) s = .next (launchWrite (onRetire slab h)) ∧
    exec (.slabReceived k slab c) s = .next (launchWrite (onSlab slab c h)) ∧
    exec (.helloReceived k supply rate press) s = .next (launchWrite h)) ∧
  (∀ (k : Nat) (d : Option Nat) (s : State), s.station.number ≠ some k →
    let p := peerOf s k
    let q : Peer := { p with presence := .present, heard := some 0, demand := d.getD p.demand }
    let a : State := { s with peers := s.peers.set k q }
    let b := if p.presence = .present ∧ d = none then a else recomputeWater a
    peerHeard k d s = if p.presence = .absent then sweepStep 0 b else b) ∧
  (∀ (k resource job demand : Nat) (s : State), k ≤ 30 → s.station.number ≠ some k → s.floor.attach ≠ .inert →
    let heard (kind : Nat) (d : Option Nat) : State := peerHeard k d (takeNotice kind k s)
    let busy (b : Bool) (u : State) : State := { u with peers := u.peers.set k { peerOf u k with busy := b } }
    exec (.pollReceived k resource) s = .next (launchWrite (
      let h := heard 1 none
      if s.floor.inStep = true ∧ s.floor.attach = .active then
        { h with floor := { h.floor with
          drive := some ⟨resource, (claimOn h resource).any fun e => e.stage == .tentative || e.stage == .held, false⟩ } }
      else h)) ∧
    exec (.demandReceived k demand) s = .next (launchWrite (heard 4 (some demand))) ∧
    exec (.releaseReceived k resource) s = .next (launchWrite (
      if isSlabId resource then clearHolder resource k (heard 3 none)
      else if isPressId resource then busy false (heard 3 none) else heard 3 none)) ∧
    exec (.claimReceived k resource job) s = .next (launchWrite (
      let h := heard 2 none
      let u := if isPressId resource then busy true h else h
      if isSlabId resource = false ∧ isPressId resource = false then h
      else match claimOn h resource with
        | none => if isSlabId resource then setHolder resource (some k) h else u
        | some e => match e.stage with
          | .polling => u
          | .tentative => if k < s.own then yieldClaim e.handle k u else u
          | .held => { u with claims := { u.claims with conflicts := min 65535 (u.claims.conflicts + 1) } })))

/-- R11, R12, R13, R14, R9, R165: the effect of SLAB, RETIRE and HELLO on their owners, h being the state once the
peer table has taken the notice; R62: a VALID staged plan on the slab goes STALE, its reservations and in-use counts
released and PLAN STALE handed; R14: an ABORTED slot on a slab retired elsewhere lets go of its in-use counts, its claim
and an order in flight, and goes EMPTY, the tag carried on. That the traps carry plan number 0 and no segment, and
that a SLAB notice whose parent is neither absent nor a slab id is refused, are the model's choices (log entries 19, 26). -/
def Obligations.SlabRetireAndHelloTakeEffect : Prop :=
  (∀ (k slab reason supply rate press : Nat) (c : SlabContents) (s : State), k ≤ 30 → s.station.number ≠ some k →
    s.floor.attach ≠ .inert →
    let heard (kind : Nat) : State := peerHeard k none (takeNotice kind k s)
    let refusal (u : State) : State := { u with register := { u.register with
      refused := min 65535 (u.register.refused + 1) } }
    (exec (.slabReceived k slab c) s = .next (launchWrite (
      let h := heard 6
      if isSlabId slab = false ∨ contentsInRange 0 c = false then refusal h
      else match findSlab h slab with
        | none => match makeRoom h with
          | some u => makeSlab slab c u
          | none => report (.trap (.registerDiscard slab) 0 none)
              { h with register := { h.register with discarded := min 65535 (h.register.discarded + 1) } }
        | some r =>
          if r.state ≠ .stock then refusal h
          else if r.contents = c then stampSlab slab h
          else stalePlan slab .changed (storeSlab slab
            (mapSlab slab (fun r => { r with contents := c }) (stampSlab slab h)))))) ∧
    (exec (.retireReceived k slab reason) s = .next (launchWrite (
      let h := heard 5
      if isSlabId slab = false then refusal h
      else match findSlab h slab with
        | none => h
        | some r =>
          if r.state = .cutting then refusal h
          else if r.state = .gone then stampSlab slab h
          else slabGone slab (stampSlab slab (setSlabState slab .gone h))))) ∧
    (exec (.helloReceived k supply rate press) s = .next (launchWrite (
      let h := heard 7
      let u : State := { h with peers := h.peers.set k { peerOf h k with fingerprint := some ⟨supply, rate, press⟩ } }
      if supply ≠ s.settings.cfg.supply ∨ press ≠ s.settings.cfg.press then
        report (.trap (.configSkew k supply rate press) 0 none) u else u)))) ∧
  (∀ (slab : Nat) (cause : StaleCause) (s : State),
    (∀ p, s.staged = .valid p → p.slab = slab → stalePlan slab cause s =
      report (.planStale p.number slab cause) (releaseJobs (distinctJobs p.pieces) { s with
        staged := .stale { p with reservations := 0 } cause
        register := { s.register with reservations := s.register.reservations - p.reservations } })) ∧
    ((∀ p, s.staged = .valid p → p.slab ≠ slab) → stalePlan slab cause s = s)) ∧
  (∀ (slab : Nat) (s : State),
    let v := stalePlan slab .gone s
    (s.active.state ≠ .aborted ∨ s.active.plan.slab ≠ slab → slabGone slab s = v) ∧
    (s.active.state = .aborted → s.active.plan.slab = slab →
      let w := releaseClaim slab (releaseJobs (distinctJobs s.active.plan.pieces) v)
      let emptied (u : State) : State := { u with active := { Active.reset with tag := s.active.tag } }
      (s.active.order = none → slabGone slab s = emptied w) ∧
      (∀ o, s.active.order = some o → slabGone slab s = emptied { w with
        host := { w.host with
          outbound := w.host.outbound.filter fun f => f.begun || f.report.orderTag != some o.tag }
        water := { w.water with
          idleRecycled := min max32 (w.water.idleRecycled + w.water.segRecycled)
          idleFresh := min max32 (w.water.idleFresh + w.water.segFresh), segRecycled := 0, segFresh := 0 } })))

/-- R155, R156, R157, R160, R167, R24: damaged notices, with the receiver on. In step, a check error is counted, and a
POLL taken with one while ACTIVE has its spoil slot driven and the own slot judged on the resource as received; a
format error is counted and answered alike. Out of step a format error is counted, a check error
and a loss of step are not (log entry 30: the model's choice), and no slot is driven. A stuck line is counted and trapped; it and a loss of step take a receiver
in step out of step, the notice counted lost and what was being sent back in its place. A sender that lost the line to
one of these stopped driving at the bit it lost: for a stuck line, its first recessive precedence bit; for a loss of step,
one of its recessive precedence bits, which one being the model's free value (log entry 55). 600 recessive bits
bring the receiver in step. The model's choices: contention by precedence (log entry 15), what is counted of a notice of this
station's own cut off (29), a DEMAND back in the queue beside a newer one (47), and the plan number 0, absent segment (19)
and kind 0 (20) of the trap. -/
def Obligations.DamagedNoticesAreCounted : Prop :=
  ∀ (kind k resource : Nat) (s : State), s.floor.attach ≠ .inert →
    let lost := s.floor.queue.any fun e => e.sending && decide (kind * 32 + k < e.notice.kind * 32 + s.own)
    let waiting := oneDemand (s.floor.queue.map fun e => { e with sending := false })
    let drive : Option WindowDrive :=
      if kind = 1 ∧ s.floor.attach = .active then some ⟨resource, drivesSlot s resource, true⟩ else none
    let bump (n : Nat) : Nat := min 65535 (n + 1)
    let line := if lost then lineAfterLoss (kind * 32 + k) s else s.floor.lineOut
    (s.floor.inStep = true →
      exec (.checkError kind k resource) s = .next { s with floor := { s.floor with
        queue := if lost then waiting else s.floor.queue, lineOut := line, drive := drive
        checkErrors := bump s.floor.checkErrors } } ∧
      exec (.formatError kind k resource) s = .next { s with floor := { s.floor with
        queue := if lost then waiting else s.floor.queue, lineOut := line, drive := drive
        formatErrors := bump s.floor.formatErrors } } ∧
      (∃ line, exec .lossOfStep s = .next { s with
          floor := { s.floor with
            queue := waiting, lineOut := line, drive := none, inStep := false, lostNotices := bump s.floor.lostNotices }
          freeUses := s.freeUses + (if (s.floor.queue.find? (·.sending)).isSome then 1 else 0) } ∧
        (s.floor.queue.find? (·.sending) = none → line = s.floor.lineOut) ∧
        ∀ e, s.floor.queue.find? (·.sending) = some e →
          let own := e.notice.kind * 32 + s.own
          (∃ j < 9, own.testBit (8 - j) = true) →
            ∃ j < 9, own.testBit (8 - j) = true ∧ line = s.floor.lineOut.take (1 + (j + 1))) ∧
      exec .stuckLine s = .next (report (.trap (.lineFault .stuckLine 0) 0 none) { s with floor := { s.floor with
        queue := waiting, lineOut := lineAfterLoss 0 s, drive := none, inStep := false
        lineFaults := bump s.floor.lineFaults, lostNotices := bump s.floor.lostNotices } })) ∧
    (s.floor.inStep = false → exec .stuckLine s = .next (report (.trap (.lineFault .stuckLine 0) 0 none)
      { s with floor := { s.floor with
        queue := waiting, lineOut := lineAfterLoss 0 s, drive := none, lineFaults := bump s.floor.lineFaults } }) ∧
      exec (.checkError kind k resource) s = .next { s with floor := { s.floor with drive := none } } ∧
      exec (.formatError kind k resource) s = .next { s with floor := { s.floor with
        queue := if lost then waiting else s.floor.queue, lineOut := line, drive := none
        formatErrors := bump s.floor.formatErrors } } ∧
      exec .lossOfStep s = .next { s with floor := { s.floor with drive := none } }) ∧
    exec .receiverResync s = .next { s with floor := { s.floor with inStep := true, drive := none } }

/-- R154, R158, R159, R161, R28, R29, R30: an attempt begins the entry at the head and puts its bits on the line. A
sender that loses the line stops at the first precedence bit at which it is recessive and the winner dominant, and that
bit is the last it has put on the line. One that reads a mismatch in the length, body or check field abandons the attempt:
it stops at that bit, its receiver drops out of step, and the notice goes back with one attempt more; after the third the
notice leaves the queue, counted and trapped, and its owner is told. One sent leaves the queue, its window (a POLL's 32 slots, recessive but
for the own slot where the station drives it) and the end marker's eight recessive bits following on the line: a POLL's
window is under way, a CLAIM settles, or is followed by RELEASE when its entry has yielded; any other owner is told nothing
it acts on. The model's choices: an attempt abandoned is no lost notice (log entry 29), a DEMAND back beside a newer one
makes room for it (47), the bits are held as this station drives them and cut as the row that ends the attempt is taken
(31), the bit of the mismatch is a free value (55), the LINE FAULT trap of a drop comes before its owner acts (40), and the
trap's plan number 0 and absent segment (19). -/
def Obligations.AttemptsEndSentOrDropped : Prop :=
  (∀ (e : TxEntry) (rest : List TxEntry) (s : State), s.floor.attach = .active → s.floor.inStep = true →
    s.floor.window = none → s.floor.queue = e :: rest → (∀ x ∈ s.floor.queue, x.sending = false) →
    exec .transmitAttempt s = .next { s with floor := { s.floor with
      queue := ({ e with sending := true } : TxEntry) :: rest
      lineOut := e.notice.lineBits s.own, drive := none } }) ∧
  (∀ (e : TxEntry) (won : Nat) (s : State), s.floor.queue.find? (·.sending) = some e →
    let own := e.notice.kind * 32 + s.own
    won < own → own < 512 → ∃ j, j < 9 ∧ own.testBit (8 - j) = true ∧ won.testBit (8 - j) = false ∧
      (∀ i < j, own.testBit (8 - i) = won.testBit (8 - i)) ∧
      lineAfterLoss won s = s.floor.lineOut.take (1 + (j + 1))) ∧
  (∀ (e : TxEntry) (before after : List TxEntry) (s : State), s.floor.queue = before ++ e :: after → e.sending = true →
    (∀ x ∈ before ++ after, x.sending = false) →
    let left : State := { s with floor := { s.floor with queue := before ++ after } }
    let driven (r : Nat) : Bool := (claimOn s r).any fun c => c.stage == .tentative || c.stage == .held
    let tail : List Bool := (match e.notice with
      | .poll r => (List.range 32).map fun k => !(driven r && k == s.own)
      | _ => []) ++ List.replicate 8 true
    let sent : State := { left with floor := { left.floor with lineOut := s.floor.lineOut ++ tail } }
    let checked := 7 + 8 * e.notice.body.length + 16
    (e.attempts + 1 < 3 → ∃ bit < checked, exec .attemptAbandoned s = .next { s with
      floor := { s.floor with
        inStep := false, drive := none, lineOut := s.floor.lineOut.take (1 + 9 + (bit + 1))
        queue := oneDemand (before ++ ({ e with sending := false, attempts := e.attempts + 1 } :: after)) }
      freeUses := s.freeUses + 1 }) ∧
    (2 ≤ e.attempts → ∃ bit < checked, exec .attemptAbandoned s = .next (tellDropped e
      (report (.trap (.lineFault .retriesExhausted e.notice.kind) 0 none) { left with
        floor := { left.floor with
          inStep := false, drive := none, lineOut := s.floor.lineOut.take (1 + 9 + (bit + 1))
          retryDrops := min 65535 (s.floor.retryDrops + 1) }
        freeUses := s.freeUses + 1 }))) ∧
    (∀ r h, e.notice = .poll r → e.owner = some h → exec .noticeSent s = .next { sent with floor := { sent.floor with
      window := some ⟨h, driven r⟩ } }) ∧
    (∀ r job h, e.notice = .claim r job → e.owner = some h → exec .noticeSent s = .next (
      if e.yielded then handNotice (.release r) none sent
      else mapClaim h (fun c => { c with notice := .done, settle := some 30 }) sent)) ∧
    (e.owner = none → exec .noticeSent s = .next sent)) ∧
  (∀ (e : TxEntry) (h : Nat) (s : State), e.owner = some h →
    (∀ r, e.notice = .poll r → tellDropped e s = pollSpoiled h s) ∧
    (∀ r job, e.notice = .claim r job → tellDropped e s =
      if e.yielded then s else mapClaim h (fun c => { c with notice := .done, settle := some 30 }) s))

/-- R27, R28, R31, R32, R7, R26: the window of an own POLL. In POLLING a dominant spoil slot polls again while fewer
than four polls are spent and ends LINE NOISY at four; the lowest dominant station slot ends the entry HELD ELSEWHERE;
all recessive, the entry goes TENTATIVE and CLAIM is handed. At the confirm a lower slot is yielded to, then the spoil
slot is judged, and otherwise the entry goes HELD with GRANTED. The settle timer's expiry hands a confirm POLL as a
spoiled window does. A window of an entry that has gone is discarded. R26, R7, R30: an entry
that ends leaves the table and is reported with its job, result, station and polls; the holder field takes this station on
GRANTED, the other on HELD ELSEWHERE and CLAIM LOST, and stands on the others. One that yields withdraws its waiting CLAIM
and POLL, and its CLAIM being sent is marked. The model's choices: a window handed over for a POLL still being sent is that
of the POLL sent (log entry 17), with none of either nothing changes (log entry 4), and the settle timer's expiry is taken
wherever the timer runs (log entry 6). -/
def Obligations.OwnWindowDecidesTheClaim : Prop :=
  (∀ (slots : BitVec 32) (s : State), s.floor.window = none →
    ((∀ x ∈ s.floor.queue, x.sending = false) → exec (.ownPollWindow slots) s = .next s) ∧
    (∀ (e : TxEntry) (r h : Nat) (before after : List TxEntry), s.floor.queue = before ++ e :: after →
      e.sending = true → (∀ x ∈ before ++ after, x.sending = false) → e.notice = .poll r → e.owner = some h →
      ∃ t, exec .noticeSent s = .next t ∧ t.floor.window.map (·.handle) = some h ∧
        exec (.ownPollWindow slots) s = exec (.ownPollWindow slots) t)) ∧
  (∀ (slots : BitVec 32) (w : OwnWindow) (s : State), s.floor.window = some w →
    let seen := if w.ownSlot then slots ||| BitVec.twoPow 32 s.own else slots
    let t : State := { s with floor := { s.floor with window := none } }
    (claimOf s w.handle = none → exec (.ownPollWindow slots) s = .next t) ∧
    (∀ e, claimOf s w.handle = some e → e.stage = .polling →
      (seen.getLsbD 31 = true → exec (.ownPollWindow slots) s = .next (pollSpoiled e.handle t)) ∧
      (∀ k, seen.getLsbD 31 = false → k < 31 → seen.getLsbD k = true → (∀ j < k, seen.getLsbD j = false) →
        exec (.ownPollWindow slots) s = .next (endClaim e.handle .heldElsewhere (some k) t)) ∧
      (seen = 0#32 → exec (.ownPollWindow slots) s = .next (handNotice
        (.claim e.resource (match e.purpose with
          | .slab job => job
          | .press => 0)) (some e.handle)
        (mapClaim e.handle (fun x => { x with stage := .tentative, notice := .queued }) t)))) ∧
    (∀ e, claimOf s w.handle = some e → e.stage = .tentative →
      (∀ k, k < s.own → k < 31 → seen.getLsbD k = true → (∀ j < k, seen.getLsbD j = false) →
        exec (.ownPollWindow slots) s = .next (yieldClaim e.handle k t)) ∧
      ((∀ j < min s.own 31, seen.getLsbD j = false) → seen.getLsbD 31 = true →
        exec (.ownPollWindow slots) s = .next (pollSpoiled e.handle t)) ∧
      ((∀ j < min s.own 31, seen.getLsbD j = false) → seen.getLsbD 31 = false →
        exec (.ownPollWindow slots) s = .next (reportResult e .granted (some s.own)
          (mapClaim e.handle (fun x => { x with stage := .held }) t)))) ∧
    (∀ (e : ClaimEntry) (u : State), claimOf u e.handle = some e →
      (e.stage ≠ .held → 4 ≤ e.polls → pollSpoiled e.handle u =
        (let v := reportResult e .lineNoisy none
          { u with claims := { u.claims with entries := u.claims.entries.filter (·.handle != e.handle) } }
        if e.stage = .tentative then handNotice (.release e.resource) none v else v)) ∧
      (e.stage ≠ .held → e.polls < 4 → pollSpoiled e.handle u = handPoll 4 e.handle u) ∧
      (e.stage ≠ .held → e.polls < 4 → u.floor.queue.length < 16 →
        pollSpoiled e.handle u = handed (.poll e.resource) (some e.handle)
          (mapClaim e.handle (fun x => { x with polls := x.polls + 1 }) u)) ∧
      (∀ result station, endClaim e.handle result station u = reportResult e result station
        { u with claims := { u.claims with entries := u.claims.entries.filter (·.handle != e.handle) } })) ∧
    (∀ (e : ClaimEntry) (result : ClaimResult) (station : Option Nat) (u : State),
      let holding (h : Option Nat) (v : State) : State := { v with register := { v.register with
        places := v.register.places.map (Option.map fun r => if r.id = e.resource then { r with holder := h } else r) } }
      (∀ job, e.purpose = .slab job →
        let v := report (.claimResult e.resource job result station e.polls) u
        (result = .granted → reportResult e result station u = holding (some u.own) v) ∧
        (result = .heldElsewhere ∨ result = .claimLost → reportResult e result station u = holding station v) ∧
        (result = .lineNoisy ∨ result = .muted → reportResult e result station u = v)) ∧
      (e.purpose = .press → reportResult e result station u = pressOutcome result u)) ∧
    (∀ (h k : Nat) (u : State), yieldClaim h k u = endClaim h .claimLost (some k) { u with floor := { u.floor with
      queue := (u.floor.queue.filter fun x => x.sending || x.owner != some h).map fun x =>
        if x.owner = some h then { x with yielded := true } else x } }) ∧
    (∀ (e : ClaimEntry) (u : State), claimOn u e.resource = some e → e.settle.isSome = true →
      exec (.settleTimerExpiry e.resource) u =
        .next (pollSpoiled e.handle (mapClaim e.handle (fun x => { x with settle := none }) u))))

/-! ### Timers and meters (01, 04, 06, 09) -/

/-- R16, R83, R88, R112, R118, R121, R122, R123, R164: the remaining expiries, each where its timer runs, and a
meter's pulse. The sweep takes its next step, and ends when no own STOCK record stands above its cursor; the refresh hands DEMAND; the dwell's end removes WATER SHORT; the stop
wait's end traps UNREPORTED PORTION and ends the order, and the plan with it in ENDING; a peer PRESENT lapses when it has
been unheard for 2 s, one LAPSED goes absent at 60 s, and neither does sooner. A pulse counts one at the accrual target.
The model's choices: an expiry of another timer is taken wherever that timer runs (log entry 6), what a lapsed or absent
entry holds (39), the plan and segment the trap names (19), and the part's own clock: with no command waiting a step takes
one of the expiries then due, free which, and with none due a millisecond passes (5). -/
def Obligations.ExpiriesAndPulsesTakeEffect : Prop :=
  ∀ s : State,
    (∀ w, s.register.sweep = some w → exec .announceTimerExpiry s = .next (sweepStep w.cursor s)) ∧
    (∀ cursor id, ((slabRecords s).filter fun r => r.state == .stock && s.isOwn r.id && decide (cursor < r.id)) ≠ [] →
      (∀ r ∈ slabRecords s, r.state = .stock → s.isOwn r.id = true → cursor < r.id → id ≤ r.id) →
      (∃ r ∈ slabRecords s, r.id = id ∧ r.state = .stock ∧ s.isOwn id = true ∧ cursor < id) →
      sweepStep cursor s = announceSlab id { s with register := { s.register with sweep := some ⟨id, 100⟩ } }) ∧
    (∀ cursor, (∀ r ∈ slabRecords s, r.state = .stock → s.isOwn r.id = true → r.id ≤ cursor) →
      sweepStep cursor s = { s with register := { s.register with sweep := none } }) ∧
    (s.pending = [] →
      let due (c : Instr) : Prop :=
        (∃ e ∈ s.claims.entries, e.settle = some 0 ∧ c = .settleTimerExpiry e.resource) ∨
        (s.floor.listenIn = some 0 ∧ s.floor.attach = .listening ∧ c = .listenInExpiry) ∨
        (∃ w, s.register.sweep = some w ∧ w.timer = 0 ∧ c = .announceTimerExpiry) ∨
        (s.water.refresh = some 0 ∧ c = .demandRefreshExpiry) ∨ (s.water.dwell = some 0 ∧ c = .resumeDwellExpiry) ∨
        (s.active.overrun = some 0 ∧ c = .overrunExpiry) ∨ (s.active.stopWait = some 0 ∧ c = .stopWaitExpiry) ∨
        (s.sump.purge = some 0 ∧ s.sump.state = .purging ∧ c = .purgeTimerExpiry) ∨
        (s.sump.retry = some 0 ∧ s.sump.state = .retryWait ∧ c = .retryTimerExpiry) ∨
        (∃ k p n, s.peers[k]? = some p ∧ s.station.number ≠ some k ∧ p.heard = some n ∧
          ((p.presence = .present ∧ 2000 ≤ n ∧ c = .peerLapse k) ∨
            (p.presence = .lapsed ∧ 60000 ≤ n ∧ c = .peerAbsent k))) ∨
        (∃ w, s.store.inFlight = some w ∧ w.timer = 0 ∧ c = .storeWriteTimeout)
      let less (t : Timer) : Timer := t.map (· - 1)
      ((∃ c, due c) → ∃ c, due c ∧ step s = exec c { s with freeUses := s.freeUses + 1 }) ∧
      ((∀ c, ¬ due c) → step s = .next { s with
        floor := { s.floor with listenIn := less s.floor.listenIn }
        peers := s.peers.map fun p => { p with heard := p.heard.map (· + 1) }
        register := { s.register with sweep := s.register.sweep.map fun w => { w with timer := w.timer - 1 } }
        claims := { s.claims with entries := s.claims.entries.map fun e => { e with settle := less e.settle } }
        active := { s.active with overrun := less s.active.overrun, stopWait := less s.active.stopWait }
        water := { s.water with dwell := less s.water.dwell, refresh := less s.water.refresh }
        sump := { s.sump with purge := less s.sump.purge, retry := less s.sump.retry }
        store := { s.store with inFlight := s.store.inFlight.map fun w => { w with timer := w.timer - 1 } } })) ∧
    (s.water.refresh.isSome = true → exec .demandRefreshExpiry s =
      .next (sendDemand { s with water := { s.water with refresh := none } })) ∧
    (s.water.dwell.isSome = true →
      let t : State := { s with water := { s.water with dwell := none } }
      exec .resumeDwellExpiry s = .next (launchWrite (if s.active.pending.waterShort then
        setPending { s.active.pending with waterShort := false } t else t))) ∧
    (∀ o, s.active.stopWait.isSome = true → s.active.order = some o →
      let a := report (.trap (.unreportedPortion o.tag) s.active.plan.number (some o.segment)) s
      let t : State := { a with
        host := { a.host with
          outbound := a.host.outbound.filter fun f => f.begun || f.report.orderTag != some o.tag }
        active := { s.active with order := none, overrun := none, stopWait := none }
        water := { s.water with
          idleRecycled := min max32 (s.water.idleRecycled + s.water.segRecycled)
          idleFresh := min max32 (s.water.idleFresh + s.water.segFresh), segRecycled := 0, segFresh := 0 } }
      (∀ r, s.active.state = .ending → s.active.fault = some r →
        exec .stopWaitExpiry s = .next (launchWrite (abortPlan r t))) ∧
      (s.active.state = .aborted → exec .stopWaitExpiry s = .next t)) ∧
    (∀ k n, s.station.number ≠ some k → (peerOf s k).heard = some n →
      ((peerOf s k).presence = .present → 2000 ≤ n → exec (.peerLapse k) s = .next (recomputeWater
        { s with peers := s.peers.set k { peerOf s k with presence := .lapsed } })) ∧
      ((peerOf s k).presence = .lapsed → 60000 ≤ n → exec (.peerAbsent k) s = .next (recomputeWater
        { s with peers := s.peers.set k ⟨.absent, 0, none, none, false⟩ }))) ∧
    (∀ k, ((peerOf s k).presence ≠ .present ∨ (∀ n, (peerOf s k).heard = some n → n < 2000) →
        exec (.peerLapse k) s = .next s) ∧
      ((peerOf s k).presence ≠ .lapsed ∨ (∀ n, (peerOf s k).heard = some n → n < 60000) →
        exec (.peerAbsent k) s = .next s)) ∧
    (let toSegment := s.active.state = .running ∨ s.active.state = .paused ∨ s.active.state = .ending ∨
        (s.active.state = .aborted ∧ s.active.order ≠ none)
      let up (n : Nat) : Nat := min max32 (n + 1)
      (toSegment →
        exec (.meterPulse .recycled) s = .next { s with water := { s.water with segRecycled := up s.water.segRecycled } } ∧
        exec (.meterPulse .fresh) s = .next { s with water := { s.water with segFresh := up s.water.segFresh } }) ∧
      (¬ toSegment →
        exec (.meterPulse .recycled) s =
          .next { s with water := { s.water with idleRecycled := up s.water.idleRecycled } } ∧
        exec (.meterPulse .fresh) s = .next { s with water := { s.water with idleFresh := up s.water.idleFresh } }))

/-- R72, R73, R111, R112, R113, R114, R117, R118, R119: the water share unit. A recompute holds the new figures; where
A or E differs, a RUNNING order neither held nor stopped is held when E is below Qmin and otherwise updated when its
feed limit differs; the dwell is judged. A change of the slot's state or pending set sets the own demand to Qnom or 0;
a changed one is handed while ACTIVE, in the place of a DEMAND that waits, and the allotment worked afresh. Where a DEMAND
that was being sent is back in the queue beside a newer one, the older place takes the newer content and one waits (log
entry 47). The valves follow the order and the fresh draw. -/
def Obligations.WaterShareFollowsThePlan : Prop :=
  ∀ s : State,
    let cfg := s.settings.cfg
    let w := waterFigures s
    let a : State := { s with water := w }
    let dwell (t : State) : State := { t with water := { t.water with
      dwell := if t.active.pending.waterShort = true ∧ cfg.qmin ≤ t.water.effective then
        some (t.water.dwell.getD 1000) else none } }
    (w.effective = w.allotment + w.fresh) ∧
    (w.allotment = s.water.allotment → w.fresh = s.water.fresh → w.effective = s.water.effective →
      recomputeWater s = a) ∧
    (w.allotment ≠ s.water.allotment ∨ w.effective ≠ s.water.effective →
      ((s.active.state ≠ .running ∨ s.active.order.all (fun o => o.held || o.stopped) = true) →
        recomputeWater s = dwell a) ∧
      (∀ o, s.active.state = .running → s.active.order = some o → o.held = false → o.stopped = false →
        (w.effective < cfg.qmin → recomputeWater s = dwell
          (let h := orderFrame (.holdOrder o.tag o.segment) a
          addCause .waterShort s.active.nextSeg o.kind o.start
            { h with active := { s.active with order := some { o with held := true } } })) ∧
        (∀ f, feedLimit cfg (segmentFeed s o.segment) w.effective = some f →
          recomputeWater s = dwell (if f = o.feed then a else
            let h := orderFrame (.feedUpdate o.tag o.segment f w.effective) a
            { h with active := { s.active with order := some { o with feed := f, water := w.effective } } })))) ∧
    (let d := match s.active.state with
        | .running => cfg.qnom
        | .ending => cfg.qnom
        | .paused => if s.active.pending.waterShort || s.active.pending.sumpFull then cfg.qnom else 0
        | _ => 0
      (d = s.water.own → tellWater s = dwell s) ∧
      (d ≠ s.water.own → tellWater s =
        dwell (recomputeWater (sendDemand { s with water := { s.water with own := d } })))) ∧
    (s.floor.attach ≠ .active → sendDemand s = s) ∧
    (s.floor.attach = .active →
      let timed (u : State) : State :=
        { u with water := { s.water with refresh := some (if s.water.own = 0 then 1500 else 500) } }
      ((∃ e ∈ s.floor.queue, e.sending = false ∧ e.notice.kind = 4) →
        sendDemand s = timed { s with floor := { s.floor with queue := s.floor.queue.map fun e =>
          if e.sending = false ∧ e.notice.kind = 4 then { e with notice := .demand s.water.own, attempts := 0 }
          else e } }) ∧
      ((∀ e ∈ s.floor.queue, e.sending = true ∨ e.notice.kind ≠ 4) →
        sendDemand s = timed (handNotice (.demand s.water.own) none s))) ∧
    (let waits (e : TxEntry) : Prop := e.sending = false ∧ e.notice.kind = 4
    (∀ q : List TxEntry, (q.filter fun e => !e.sending && e.notice.kind == 4).length ≤ 1 → oneDemand q = q) ∧
    ∀ (before between after : List TxEntry) (older newer : TxEntry), waits older → waits newer → older ≠ newer →
      (∀ e ∈ before ++ between ++ after, ¬ waits e) →
      oneDemand (before ++ older :: between ++ newer :: after) =
        before ++ { older with notice := newer.notice, attempts := 0 } :: between ++ after) ∧
    (s.recycledValve = true ↔ ∃ o, s.active.order = some o ∧ o.held = false) ∧
    (s.freshValve = true ↔ (∃ o, s.active.order = some o ∧ o.held = false) ∧ 0 < s.water.fresh) ∧
    (s.purgeValve = true ↔ s.sump.state = .purging)
end

