-- ==== Sys2Proof/Laws/State.lean ====
section
/-! SUPPORT. What each shared operation leaves alone: one lemma per block of State that the operation does not write, so
that no proof unfolds a record update to see a frame. -/

namespace Sys2Proof.Machine

/-! `report` writes host. -/

@[simp] theorem report_pending (r : Report) (s : State) : (report r s).pending = s.pending := by
  unfold report; split <;> rfl
@[simp] theorem report_station (r : Report) (s : State) : (report r s).station = s.station := by
  unfold report; split <;> rfl
@[simp] theorem report_settings (r : Report) (s : State) : (report r s).settings = s.settings := by
  unfold report; split <;> rfl
@[simp] theorem report_floor (r : Report) (s : State) : (report r s).floor = s.floor := by
  unfold report; split <;> rfl
@[simp] theorem report_peers (r : Report) (s : State) : (report r s).peers = s.peers := by
  unfold report; split <;> rfl
@[simp] theorem report_register (r : Report) (s : State) : (report r s).register = s.register := by
  unfold report; split <;> rfl
@[simp] theorem report_claims (r : Report) (s : State) : (report r s).claims = s.claims := by
  unfold report; split <;> rfl
@[simp] theorem report_staged (r : Report) (s : State) : (report r s).staged = s.staged := by
  unfold report; split <;> rfl
@[simp] theorem report_active (r : Report) (s : State) : (report r s).active = s.active := by
  unfold report; split <;> rfl
@[simp] theorem report_charge (r : Report) (s : State) : (report r s).charge = s.charge := by
  unfold report; split <;> rfl
@[simp] theorem report_water (r : Report) (s : State) : (report r s).water = s.water := by
  unfold report; split <;> rfl
@[simp] theorem report_sump (r : Report) (s : State) : (report r s).sump = s.sump := by
  unfold report; split <;> rfl
@[simp] theorem report_jobs (r : Report) (s : State) : (report r s).jobs = s.jobs := by
  unfold report; split <;> rfl
@[simp] theorem report_store (r : Report) (s : State) : (report r s).store = s.store := by
  unfold report; split <;> rfl
@[simp] theorem report_freeUses (r : Report) (s : State) : (report r s).freeUses = s.freeUses := by
  unfold report; split <;> rfl

/-! `trap` writes host. -/

@[simp] theorem trap_pending (k : Trap) (p : Nat) (g : Option Nat) (s : State) : (trap k p g s).pending = s.pending := by
  simp [trap]
@[simp] theorem trap_station (k : Trap) (p : Nat) (g : Option Nat) (s : State) : (trap k p g s).station = s.station := by
  simp [trap]
@[simp] theorem trap_settings (k : Trap) (p : Nat) (g : Option Nat) (s : State) : (trap k p g s).settings = s.settings := by
  simp [trap]
@[simp] theorem trap_floor (k : Trap) (p : Nat) (g : Option Nat) (s : State) : (trap k p g s).floor = s.floor := by
  simp [trap]
@[simp] theorem trap_peers (k : Trap) (p : Nat) (g : Option Nat) (s : State) : (trap k p g s).peers = s.peers := by
  simp [trap]
@[simp] theorem trap_register (k : Trap) (p : Nat) (g : Option Nat) (s : State) : (trap k p g s).register = s.register := by
  simp [trap]
@[simp] theorem trap_claims (k : Trap) (p : Nat) (g : Option Nat) (s : State) : (trap k p g s).claims = s.claims := by
  simp [trap]
@[simp] theorem trap_staged (k : Trap) (p : Nat) (g : Option Nat) (s : State) : (trap k p g s).staged = s.staged := by
  simp [trap]
@[simp] theorem trap_active (k : Trap) (p : Nat) (g : Option Nat) (s : State) : (trap k p g s).active = s.active := by
  simp [trap]
@[simp] theorem trap_charge (k : Trap) (p : Nat) (g : Option Nat) (s : State) : (trap k p g s).charge = s.charge := by
  simp [trap]
@[simp] theorem trap_water (k : Trap) (p : Nat) (g : Option Nat) (s : State) : (trap k p g s).water = s.water := by
  simp [trap]
@[simp] theorem trap_sump (k : Trap) (p : Nat) (g : Option Nat) (s : State) : (trap k p g s).sump = s.sump := by
  simp [trap]
@[simp] theorem trap_jobs (k : Trap) (p : Nat) (g : Option Nat) (s : State) : (trap k p g s).jobs = s.jobs := by
  simp [trap]
@[simp] theorem trap_store (k : Trap) (p : Nat) (g : Option Nat) (s : State) : (trap k p g s).store = s.store := by
  simp [trap]
@[simp] theorem trap_freeUses (k : Trap) (p : Nat) (g : Option Nat) (s : State) : (trap k p g s).freeUses = s.freeUses := by
  simp [trap]

/-! `acceptWith` writes host. -/

@[simp] theorem acceptWith_pending (c : Nat) (f : Accepted) (s : State) : (acceptWith c f s).pending = s.pending := by
  simp [acceptWith]
@[simp] theorem acceptWith_station (c : Nat) (f : Accepted) (s : State) : (acceptWith c f s).station = s.station := by
  simp [acceptWith]
@[simp] theorem acceptWith_settings (c : Nat) (f : Accepted) (s : State) : (acceptWith c f s).settings = s.settings := by
  simp [acceptWith]
@[simp] theorem acceptWith_floor (c : Nat) (f : Accepted) (s : State) : (acceptWith c f s).floor = s.floor := by
  simp [acceptWith]
@[simp] theorem acceptWith_peers (c : Nat) (f : Accepted) (s : State) : (acceptWith c f s).peers = s.peers := by
  simp [acceptWith]
@[simp] theorem acceptWith_register (c : Nat) (f : Accepted) (s : State) : (acceptWith c f s).register = s.register := by
  simp [acceptWith]
@[simp] theorem acceptWith_claims (c : Nat) (f : Accepted) (s : State) : (acceptWith c f s).claims = s.claims := by
  simp [acceptWith]
@[simp] theorem acceptWith_staged (c : Nat) (f : Accepted) (s : State) : (acceptWith c f s).staged = s.staged := by
  simp [acceptWith]
@[simp] theorem acceptWith_active (c : Nat) (f : Accepted) (s : State) : (acceptWith c f s).active = s.active := by
  simp [acceptWith]
@[simp] theorem acceptWith_charge (c : Nat) (f : Accepted) (s : State) : (acceptWith c f s).charge = s.charge := by
  simp [acceptWith]
@[simp] theorem acceptWith_water (c : Nat) (f : Accepted) (s : State) : (acceptWith c f s).water = s.water := by
  simp [acceptWith]
@[simp] theorem acceptWith_sump (c : Nat) (f : Accepted) (s : State) : (acceptWith c f s).sump = s.sump := by
  simp [acceptWith]
@[simp] theorem acceptWith_jobs (c : Nat) (f : Accepted) (s : State) : (acceptWith c f s).jobs = s.jobs := by
  simp [acceptWith]
@[simp] theorem acceptWith_store (c : Nat) (f : Accepted) (s : State) : (acceptWith c f s).store = s.store := by
  simp [acceptWith]
@[simp] theorem acceptWith_freeUses (c : Nat) (f : Accepted) (s : State) : (acceptWith c f s).freeUses = s.freeUses := by
  simp [acceptWith]

/-! `accept` writes host. -/

@[simp] theorem accept_pending (c : Nat) (s : State) : (accept c s).pending = s.pending := by
  simp [accept]
@[simp] theorem accept_station (c : Nat) (s : State) : (accept c s).station = s.station := by
  simp [accept]
@[simp] theorem accept_settings (c : Nat) (s : State) : (accept c s).settings = s.settings := by
  simp [accept]
@[simp] theorem accept_floor (c : Nat) (s : State) : (accept c s).floor = s.floor := by
  simp [accept]
@[simp] theorem accept_peers (c : Nat) (s : State) : (accept c s).peers = s.peers := by
  simp [accept]
@[simp] theorem accept_register (c : Nat) (s : State) : (accept c s).register = s.register := by
  simp [accept]
@[simp] theorem accept_claims (c : Nat) (s : State) : (accept c s).claims = s.claims := by
  simp [accept]
@[simp] theorem accept_staged (c : Nat) (s : State) : (accept c s).staged = s.staged := by
  simp [accept]
@[simp] theorem accept_active (c : Nat) (s : State) : (accept c s).active = s.active := by
  simp [accept]
@[simp] theorem accept_charge (c : Nat) (s : State) : (accept c s).charge = s.charge := by
  simp [accept]
@[simp] theorem accept_water (c : Nat) (s : State) : (accept c s).water = s.water := by
  simp [accept]
@[simp] theorem accept_sump (c : Nat) (s : State) : (accept c s).sump = s.sump := by
  simp [accept]
@[simp] theorem accept_jobs (c : Nat) (s : State) : (accept c s).jobs = s.jobs := by
  simp [accept]
@[simp] theorem accept_store (c : Nat) (s : State) : (accept c s).store = s.store := by
  simp [accept]
@[simp] theorem accept_freeUses (c : Nat) (s : State) : (accept c s).freeUses = s.freeUses := by
  simp [accept]

/-! `refuse` writes host. -/

@[simp] theorem refuse_pending (c : Nat) (w : Reason) (s : State) : (refuse c w s).pending = s.pending := by
  simp [refuse]
@[simp] theorem refuse_station (c : Nat) (w : Reason) (s : State) : (refuse c w s).station = s.station := by
  simp [refuse]
@[simp] theorem refuse_settings (c : Nat) (w : Reason) (s : State) : (refuse c w s).settings = s.settings := by
  simp [refuse]
@[simp] theorem refuse_floor (c : Nat) (w : Reason) (s : State) : (refuse c w s).floor = s.floor := by
  simp [refuse]
@[simp] theorem refuse_peers (c : Nat) (w : Reason) (s : State) : (refuse c w s).peers = s.peers := by
  simp [refuse]
@[simp] theorem refuse_register (c : Nat) (w : Reason) (s : State) : (refuse c w s).register = s.register := by
  simp [refuse]
@[simp] theorem refuse_claims (c : Nat) (w : Reason) (s : State) : (refuse c w s).claims = s.claims := by
  simp [refuse]
@[simp] theorem refuse_staged (c : Nat) (w : Reason) (s : State) : (refuse c w s).staged = s.staged := by
  simp [refuse]
@[simp] theorem refuse_active (c : Nat) (w : Reason) (s : State) : (refuse c w s).active = s.active := by
  simp [refuse]
@[simp] theorem refuse_charge (c : Nat) (w : Reason) (s : State) : (refuse c w s).charge = s.charge := by
  simp [refuse]
@[simp] theorem refuse_water (c : Nat) (w : Reason) (s : State) : (refuse c w s).water = s.water := by
  simp [refuse]
@[simp] theorem refuse_sump (c : Nat) (w : Reason) (s : State) : (refuse c w s).sump = s.sump := by
  simp [refuse]
@[simp] theorem refuse_jobs (c : Nat) (w : Reason) (s : State) : (refuse c w s).jobs = s.jobs := by
  simp [refuse]
@[simp] theorem refuse_store (c : Nat) (w : Reason) (s : State) : (refuse c w s).store = s.store := by
  simp [refuse]
@[simp] theorem refuse_freeUses (c : Nat) (w : Reason) (s : State) : (refuse c w s).freeUses = s.freeUses := by
  simp [refuse]

/-! `orderFrame` writes host. -/

@[simp] theorem orderFrame_pending (r : Report) (s : State) : (orderFrame r s).pending = s.pending := by
  unfold orderFrame; simp only; split <;> rfl
@[simp] theorem orderFrame_station (r : Report) (s : State) : (orderFrame r s).station = s.station := by
  unfold orderFrame; simp only; split <;> rfl
@[simp] theorem orderFrame_settings (r : Report) (s : State) : (orderFrame r s).settings = s.settings := by
  unfold orderFrame; simp only; split <;> rfl
@[simp] theorem orderFrame_floor (r : Report) (s : State) : (orderFrame r s).floor = s.floor := by
  unfold orderFrame; simp only; split <;> rfl
@[simp] theorem orderFrame_peers (r : Report) (s : State) : (orderFrame r s).peers = s.peers := by
  unfold orderFrame; simp only; split <;> rfl
@[simp] theorem orderFrame_register (r : Report) (s : State) : (orderFrame r s).register = s.register := by
  unfold orderFrame; simp only; split <;> rfl
@[simp] theorem orderFrame_claims (r : Report) (s : State) : (orderFrame r s).claims = s.claims := by
  unfold orderFrame; simp only; split <;> rfl
@[simp] theorem orderFrame_staged (r : Report) (s : State) : (orderFrame r s).staged = s.staged := by
  unfold orderFrame; simp only; split <;> rfl
@[simp] theorem orderFrame_active (r : Report) (s : State) : (orderFrame r s).active = s.active := by
  unfold orderFrame; simp only; split <;> rfl
@[simp] theorem orderFrame_charge (r : Report) (s : State) : (orderFrame r s).charge = s.charge := by
  unfold orderFrame; simp only; split <;> rfl
@[simp] theorem orderFrame_water (r : Report) (s : State) : (orderFrame r s).water = s.water := by
  unfold orderFrame; simp only; split <;> rfl
@[simp] theorem orderFrame_sump (r : Report) (s : State) : (orderFrame r s).sump = s.sump := by
  unfold orderFrame; simp only; split <;> rfl
@[simp] theorem orderFrame_jobs (r : Report) (s : State) : (orderFrame r s).jobs = s.jobs := by
  unfold orderFrame; simp only; split <;> rfl
@[simp] theorem orderFrame_store (r : Report) (s : State) : (orderFrame r s).store = s.store := by
  unfold orderFrame; simp only; split <;> rfl
@[simp] theorem orderFrame_freeUses (r : Report) (s : State) : (orderFrame r s).freeUses = s.freeUses := by
  unfold orderFrame; simp only; split <;> rfl

/-! `withdrawOrders` writes host. -/

@[simp] theorem withdrawOrders_pending (k : Nat) (s : State) : (withdrawOrders k s).pending = s.pending := rfl
@[simp] theorem withdrawOrders_station (k : Nat) (s : State) : (withdrawOrders k s).station = s.station := rfl
@[simp] theorem withdrawOrders_settings (k : Nat) (s : State) : (withdrawOrders k s).settings = s.settings := rfl
@[simp] theorem withdrawOrders_floor (k : Nat) (s : State) : (withdrawOrders k s).floor = s.floor := rfl
@[simp] theorem withdrawOrders_peers (k : Nat) (s : State) : (withdrawOrders k s).peers = s.peers := rfl
@[simp] theorem withdrawOrders_register (k : Nat) (s : State) : (withdrawOrders k s).register = s.register := rfl
@[simp] theorem withdrawOrders_claims (k : Nat) (s : State) : (withdrawOrders k s).claims = s.claims := rfl
@[simp] theorem withdrawOrders_staged (k : Nat) (s : State) : (withdrawOrders k s).staged = s.staged := rfl
@[simp] theorem withdrawOrders_active (k : Nat) (s : State) : (withdrawOrders k s).active = s.active := rfl
@[simp] theorem withdrawOrders_charge (k : Nat) (s : State) : (withdrawOrders k s).charge = s.charge := rfl
@[simp] theorem withdrawOrders_water (k : Nat) (s : State) : (withdrawOrders k s).water = s.water := rfl
@[simp] theorem withdrawOrders_sump (k : Nat) (s : State) : (withdrawOrders k s).sump = s.sump := rfl
@[simp] theorem withdrawOrders_jobs (k : Nat) (s : State) : (withdrawOrders k s).jobs = s.jobs := rfl
@[simp] theorem withdrawOrders_store (k : Nat) (s : State) : (withdrawOrders k s).store = s.store := rfl
@[simp] theorem withdrawOrders_freeUses (k : Nat) (s : State) : (withdrawOrders k s).freeUses = s.freeUses := rfl

/-! `popInbound` writes host. -/

@[simp] theorem popInbound_pending (s : State) : (popInbound s).pending = s.pending := rfl
@[simp] theorem popInbound_station (s : State) : (popInbound s).station = s.station := rfl
@[simp] theorem popInbound_settings (s : State) : (popInbound s).settings = s.settings := rfl
@[simp] theorem popInbound_floor (s : State) : (popInbound s).floor = s.floor := rfl
@[simp] theorem popInbound_peers (s : State) : (popInbound s).peers = s.peers := rfl
@[simp] theorem popInbound_register (s : State) : (popInbound s).register = s.register := rfl
@[simp] theorem popInbound_claims (s : State) : (popInbound s).claims = s.claims := rfl
@[simp] theorem popInbound_staged (s : State) : (popInbound s).staged = s.staged := rfl
@[simp] theorem popInbound_active (s : State) : (popInbound s).active = s.active := rfl
@[simp] theorem popInbound_charge (s : State) : (popInbound s).charge = s.charge := rfl
@[simp] theorem popInbound_water (s : State) : (popInbound s).water = s.water := rfl
@[simp] theorem popInbound_sump (s : State) : (popInbound s).sump = s.sump := rfl
@[simp] theorem popInbound_jobs (s : State) : (popInbound s).jobs = s.jobs := rfl
@[simp] theorem popInbound_store (s : State) : (popInbound s).store = s.store := rfl
@[simp] theorem popInbound_freeUses (s : State) : (popInbound s).freeUses = s.freeUses := rfl

/-! `queueWrite` writes store. -/

@[simp] theorem queueWrite_pending (p : StorePlace) (s : State) : (queueWrite p s).pending = s.pending := by
  unfold queueWrite; split <;> rfl
@[simp] theorem queueWrite_station (p : StorePlace) (s : State) : (queueWrite p s).station = s.station := by
  unfold queueWrite; split <;> rfl
@[simp] theorem queueWrite_settings (p : StorePlace) (s : State) : (queueWrite p s).settings = s.settings := by
  unfold queueWrite; split <;> rfl
@[simp] theorem queueWrite_host (p : StorePlace) (s : State) : (queueWrite p s).host = s.host := by
  unfold queueWrite; split <;> rfl
@[simp] theorem queueWrite_floor (p : StorePlace) (s : State) : (queueWrite p s).floor = s.floor := by
  unfold queueWrite; split <;> rfl
@[simp] theorem queueWrite_peers (p : StorePlace) (s : State) : (queueWrite p s).peers = s.peers := by
  unfold queueWrite; split <;> rfl
@[simp] theorem queueWrite_register (p : StorePlace) (s : State) : (queueWrite p s).register = s.register := by
  unfold queueWrite; split <;> rfl
@[simp] theorem queueWrite_claims (p : StorePlace) (s : State) : (queueWrite p s).claims = s.claims := by
  unfold queueWrite; split <;> rfl
@[simp] theorem queueWrite_staged (p : StorePlace) (s : State) : (queueWrite p s).staged = s.staged := by
  unfold queueWrite; split <;> rfl
@[simp] theorem queueWrite_active (p : StorePlace) (s : State) : (queueWrite p s).active = s.active := by
  unfold queueWrite; split <;> rfl
@[simp] theorem queueWrite_charge (p : StorePlace) (s : State) : (queueWrite p s).charge = s.charge := by
  unfold queueWrite; split <;> rfl
@[simp] theorem queueWrite_water (p : StorePlace) (s : State) : (queueWrite p s).water = s.water := by
  unfold queueWrite; split <;> rfl
@[simp] theorem queueWrite_sump (p : StorePlace) (s : State) : (queueWrite p s).sump = s.sump := by
  unfold queueWrite; split <;> rfl
@[simp] theorem queueWrite_jobs (p : StorePlace) (s : State) : (queueWrite p s).jobs = s.jobs := by
  unfold queueWrite; split <;> rfl
@[simp] theorem queueWrite_freeUses (p : StorePlace) (s : State) : (queueWrite p s).freeUses = s.freeUses := by
  unfold queueWrite; split <;> rfl

/-! `launchWrite` writes store. -/

@[simp] theorem launchWrite_pending (s : State) : (launchWrite s).pending = s.pending := by
  unfold launchWrite; split <;> rfl
@[simp] theorem launchWrite_station (s : State) : (launchWrite s).station = s.station := by
  unfold launchWrite; split <;> rfl
@[simp] theorem launchWrite_settings (s : State) : (launchWrite s).settings = s.settings := by
  unfold launchWrite; split <;> rfl
@[simp] theorem launchWrite_host (s : State) : (launchWrite s).host = s.host := by
  unfold launchWrite; split <;> rfl
@[simp] theorem launchWrite_floor (s : State) : (launchWrite s).floor = s.floor := by
  unfold launchWrite; split <;> rfl
@[simp] theorem launchWrite_peers (s : State) : (launchWrite s).peers = s.peers := by
  unfold launchWrite; split <;> rfl
@[simp] theorem launchWrite_register (s : State) : (launchWrite s).register = s.register := by
  unfold launchWrite; split <;> rfl
@[simp] theorem launchWrite_claims (s : State) : (launchWrite s).claims = s.claims := by
  unfold launchWrite; split <;> rfl
@[simp] theorem launchWrite_staged (s : State) : (launchWrite s).staged = s.staged := by
  unfold launchWrite; split <;> rfl
@[simp] theorem launchWrite_active (s : State) : (launchWrite s).active = s.active := by
  unfold launchWrite; split <;> rfl
@[simp] theorem launchWrite_charge (s : State) : (launchWrite s).charge = s.charge := by
  unfold launchWrite; split <;> rfl
@[simp] theorem launchWrite_water (s : State) : (launchWrite s).water = s.water := by
  unfold launchWrite; split <;> rfl
@[simp] theorem launchWrite_sump (s : State) : (launchWrite s).sump = s.sump := by
  unfold launchWrite; split <;> rfl
@[simp] theorem launchWrite_jobs (s : State) : (launchWrite s).jobs = s.jobs := by
  unfold launchWrite; split <;> rfl
@[simp] theorem launchWrite_freeUses (s : State) : (launchWrite s).freeUses = s.freeUses := by
  unfold launchWrite; split <;> rfl

/-! `mapSlab` writes register. -/

@[simp] theorem mapSlab_pending (k : Nat) (f : SlabRecord → SlabRecord) (s : State) : (mapSlab k f s).pending = s.pending := rfl
@[simp] theorem mapSlab_station (k : Nat) (f : SlabRecord → SlabRecord) (s : State) : (mapSlab k f s).station = s.station := rfl
@[simp] theorem mapSlab_settings (k : Nat) (f : SlabRecord → SlabRecord) (s : State) : (mapSlab k f s).settings = s.settings := rfl
@[simp] theorem mapSlab_host (k : Nat) (f : SlabRecord → SlabRecord) (s : State) : (mapSlab k f s).host = s.host := rfl
@[simp] theorem mapSlab_floor (k : Nat) (f : SlabRecord → SlabRecord) (s : State) : (mapSlab k f s).floor = s.floor := rfl
@[simp] theorem mapSlab_peers (k : Nat) (f : SlabRecord → SlabRecord) (s : State) : (mapSlab k f s).peers = s.peers := rfl
@[simp] theorem mapSlab_claims (k : Nat) (f : SlabRecord → SlabRecord) (s : State) : (mapSlab k f s).claims = s.claims := rfl
@[simp] theorem mapSlab_staged (k : Nat) (f : SlabRecord → SlabRecord) (s : State) : (mapSlab k f s).staged = s.staged := rfl
@[simp] theorem mapSlab_active (k : Nat) (f : SlabRecord → SlabRecord) (s : State) : (mapSlab k f s).active = s.active := rfl
@[simp] theorem mapSlab_charge (k : Nat) (f : SlabRecord → SlabRecord) (s : State) : (mapSlab k f s).charge = s.charge := rfl
@[simp] theorem mapSlab_water (k : Nat) (f : SlabRecord → SlabRecord) (s : State) : (mapSlab k f s).water = s.water := rfl
@[simp] theorem mapSlab_sump (k : Nat) (f : SlabRecord → SlabRecord) (s : State) : (mapSlab k f s).sump = s.sump := rfl
@[simp] theorem mapSlab_jobs (k : Nat) (f : SlabRecord → SlabRecord) (s : State) : (mapSlab k f s).jobs = s.jobs := rfl
@[simp] theorem mapSlab_store (k : Nat) (f : SlabRecord → SlabRecord) (s : State) : (mapSlab k f s).store = s.store := rfl
@[simp] theorem mapSlab_freeUses (k : Nat) (f : SlabRecord → SlabRecord) (s : State) : (mapSlab k f s).freeUses = s.freeUses := rfl

/-! `storeSlab` writes store. -/

@[simp] theorem storeSlab_pending (k : Nat) (s : State) : (storeSlab k s).pending = s.pending := by
  unfold storeSlab; cases slabPlace s k <;> simp
@[simp] theorem storeSlab_station (k : Nat) (s : State) : (storeSlab k s).station = s.station := by
  unfold storeSlab; cases slabPlace s k <;> simp
@[simp] theorem storeSlab_settings (k : Nat) (s : State) : (storeSlab k s).settings = s.settings := by
  unfold storeSlab; cases slabPlace s k <;> simp
@[simp] theorem storeSlab_host (k : Nat) (s : State) : (storeSlab k s).host = s.host := by
  unfold storeSlab; cases slabPlace s k <;> simp
@[simp] theorem storeSlab_floor (k : Nat) (s : State) : (storeSlab k s).floor = s.floor := by
  unfold storeSlab; cases slabPlace s k <;> simp
@[simp] theorem storeSlab_peers (k : Nat) (s : State) : (storeSlab k s).peers = s.peers := by
  unfold storeSlab; cases slabPlace s k <;> simp
@[simp] theorem storeSlab_register (k : Nat) (s : State) : (storeSlab k s).register = s.register := by
  unfold storeSlab; cases slabPlace s k <;> simp
@[simp] theorem storeSlab_claims (k : Nat) (s : State) : (storeSlab k s).claims = s.claims := by
  unfold storeSlab; cases slabPlace s k <;> simp
@[simp] theorem storeSlab_staged (k : Nat) (s : State) : (storeSlab k s).staged = s.staged := by
  unfold storeSlab; cases slabPlace s k <;> simp
@[simp] theorem storeSlab_active (k : Nat) (s : State) : (storeSlab k s).active = s.active := by
  unfold storeSlab; cases slabPlace s k <;> simp
@[simp] theorem storeSlab_charge (k : Nat) (s : State) : (storeSlab k s).charge = s.charge := by
  unfold storeSlab; cases slabPlace s k <;> simp
@[simp] theorem storeSlab_water (k : Nat) (s : State) : (storeSlab k s).water = s.water := by
  unfold storeSlab; cases slabPlace s k <;> simp
@[simp] theorem storeSlab_sump (k : Nat) (s : State) : (storeSlab k s).sump = s.sump := by
  unfold storeSlab; cases slabPlace s k <;> simp
@[simp] theorem storeSlab_jobs (k : Nat) (s : State) : (storeSlab k s).jobs = s.jobs := by
  unfold storeSlab; cases slabPlace s k <;> simp
@[simp] theorem storeSlab_freeUses (k : Nat) (s : State) : (storeSlab k s).freeUses = s.freeUses := by
  unfold storeSlab; cases slabPlace s k <;> simp

/-! `setSlabState` writes register, store. -/

@[simp] theorem setSlabState_pending (k : Nat) (x : SlabState) (s : State) : (setSlabState k x s).pending = s.pending := by
  simp [setSlabState]
@[simp] theorem setSlabState_station (k : Nat) (x : SlabState) (s : State) : (setSlabState k x s).station = s.station := by
  simp [setSlabState]
@[simp] theorem setSlabState_settings (k : Nat) (x : SlabState) (s : State) : (setSlabState k x s).settings = s.settings := by
  simp [setSlabState]
@[simp] theorem setSlabState_host (k : Nat) (x : SlabState) (s : State) : (setSlabState k x s).host = s.host := by
  simp [setSlabState]
@[simp] theorem setSlabState_floor (k : Nat) (x : SlabState) (s : State) : (setSlabState k x s).floor = s.floor := by
  simp [setSlabState]
@[simp] theorem setSlabState_peers (k : Nat) (x : SlabState) (s : State) : (setSlabState k x s).peers = s.peers := by
  simp [setSlabState]
@[simp] theorem setSlabState_claims (k : Nat) (x : SlabState) (s : State) : (setSlabState k x s).claims = s.claims := by
  simp [setSlabState]
@[simp] theorem setSlabState_staged (k : Nat) (x : SlabState) (s : State) : (setSlabState k x s).staged = s.staged := by
  simp [setSlabState]
@[simp] theorem setSlabState_active (k : Nat) (x : SlabState) (s : State) : (setSlabState k x s).active = s.active := by
  simp [setSlabState]
@[simp] theorem setSlabState_charge (k : Nat) (x : SlabState) (s : State) : (setSlabState k x s).charge = s.charge := by
  simp [setSlabState]
@[simp] theorem setSlabState_water (k : Nat) (x : SlabState) (s : State) : (setSlabState k x s).water = s.water := by
  simp [setSlabState]
@[simp] theorem setSlabState_sump (k : Nat) (x : SlabState) (s : State) : (setSlabState k x s).sump = s.sump := by
  simp [setSlabState]
@[simp] theorem setSlabState_jobs (k : Nat) (x : SlabState) (s : State) : (setSlabState k x s).jobs = s.jobs := by
  simp [setSlabState]
@[simp] theorem setSlabState_freeUses (k : Nat) (x : SlabState) (s : State) : (setSlabState k x s).freeUses = s.freeUses := by
  simp [setSlabState]

/-! `setHolder` writes register. -/

@[simp] theorem setHolder_pending (k : Nat) (h : Option Nat) (s : State) : (setHolder k h s).pending = s.pending := rfl
@[simp] theorem setHolder_station (k : Nat) (h : Option Nat) (s : State) : (setHolder k h s).station = s.station := rfl
@[simp] theorem setHolder_settings (k : Nat) (h : Option Nat) (s : State) : (setHolder k h s).settings = s.settings := rfl
@[simp] theorem setHolder_host (k : Nat) (h : Option Nat) (s : State) : (setHolder k h s).host = s.host := rfl
@[simp] theorem setHolder_floor (k : Nat) (h : Option Nat) (s : State) : (setHolder k h s).floor = s.floor := rfl
@[simp] theorem setHolder_peers (k : Nat) (h : Option Nat) (s : State) : (setHolder k h s).peers = s.peers := rfl
@[simp] theorem setHolder_claims (k : Nat) (h : Option Nat) (s : State) : (setHolder k h s).claims = s.claims := rfl
@[simp] theorem setHolder_staged (k : Nat) (h : Option Nat) (s : State) : (setHolder k h s).staged = s.staged := rfl
@[simp] theorem setHolder_active (k : Nat) (h : Option Nat) (s : State) : (setHolder k h s).active = s.active := rfl
@[simp] theorem setHolder_charge (k : Nat) (h : Option Nat) (s : State) : (setHolder k h s).charge = s.charge := rfl
@[simp] theorem setHolder_water (k : Nat) (h : Option Nat) (s : State) : (setHolder k h s).water = s.water := rfl
@[simp] theorem setHolder_sump (k : Nat) (h : Option Nat) (s : State) : (setHolder k h s).sump = s.sump := rfl
@[simp] theorem setHolder_jobs (k : Nat) (h : Option Nat) (s : State) : (setHolder k h s).jobs = s.jobs := rfl
@[simp] theorem setHolder_store (k : Nat) (h : Option Nat) (s : State) : (setHolder k h s).store = s.store := rfl
@[simp] theorem setHolder_freeUses (k : Nat) (h : Option Nat) (s : State) : (setHolder k h s).freeUses = s.freeUses := rfl

/-! `clearHolder` writes register. -/

@[simp] theorem clearHolder_pending (k h : Nat) (s : State) : (clearHolder k h s).pending = s.pending := rfl
@[simp] theorem clearHolder_station (k h : Nat) (s : State) : (clearHolder k h s).station = s.station := rfl
@[simp] theorem clearHolder_settings (k h : Nat) (s : State) : (clearHolder k h s).settings = s.settings := rfl
@[simp] theorem clearHolder_host (k h : Nat) (s : State) : (clearHolder k h s).host = s.host := rfl
@[simp] theorem clearHolder_floor (k h : Nat) (s : State) : (clearHolder k h s).floor = s.floor := rfl
@[simp] theorem clearHolder_peers (k h : Nat) (s : State) : (clearHolder k h s).peers = s.peers := rfl
@[simp] theorem clearHolder_claims (k h : Nat) (s : State) : (clearHolder k h s).claims = s.claims := rfl
@[simp] theorem clearHolder_staged (k h : Nat) (s : State) : (clearHolder k h s).staged = s.staged := rfl
@[simp] theorem clearHolder_active (k h : Nat) (s : State) : (clearHolder k h s).active = s.active := rfl
@[simp] theorem clearHolder_charge (k h : Nat) (s : State) : (clearHolder k h s).charge = s.charge := rfl
@[simp] theorem clearHolder_water (k h : Nat) (s : State) : (clearHolder k h s).water = s.water := rfl
@[simp] theorem clearHolder_sump (k h : Nat) (s : State) : (clearHolder k h s).sump = s.sump := rfl
@[simp] theorem clearHolder_jobs (k h : Nat) (s : State) : (clearHolder k h s).jobs = s.jobs := rfl
@[simp] theorem clearHolder_store (k h : Nat) (s : State) : (clearHolder k h s).store = s.store := rfl
@[simp] theorem clearHolder_freeUses (k h : Nat) (s : State) : (clearHolder k h s).freeUses = s.freeUses := rfl

/-! `stampSlab` writes register. -/

@[simp] theorem stampSlab_pending (k : Nat) (s : State) : (stampSlab k s).pending = s.pending := rfl
@[simp] theorem stampSlab_station (k : Nat) (s : State) : (stampSlab k s).station = s.station := rfl
@[simp] theorem stampSlab_settings (k : Nat) (s : State) : (stampSlab k s).settings = s.settings := rfl
@[simp] theorem stampSlab_host (k : Nat) (s : State) : (stampSlab k s).host = s.host := rfl
@[simp] theorem stampSlab_floor (k : Nat) (s : State) : (stampSlab k s).floor = s.floor := rfl
@[simp] theorem stampSlab_peers (k : Nat) (s : State) : (stampSlab k s).peers = s.peers := rfl
@[simp] theorem stampSlab_claims (k : Nat) (s : State) : (stampSlab k s).claims = s.claims := rfl
@[simp] theorem stampSlab_staged (k : Nat) (s : State) : (stampSlab k s).staged = s.staged := rfl
@[simp] theorem stampSlab_active (k : Nat) (s : State) : (stampSlab k s).active = s.active := rfl
@[simp] theorem stampSlab_charge (k : Nat) (s : State) : (stampSlab k s).charge = s.charge := rfl
@[simp] theorem stampSlab_water (k : Nat) (s : State) : (stampSlab k s).water = s.water := rfl
@[simp] theorem stampSlab_sump (k : Nat) (s : State) : (stampSlab k s).sump = s.sump := rfl
@[simp] theorem stampSlab_jobs (k : Nat) (s : State) : (stampSlab k s).jobs = s.jobs := rfl
@[simp] theorem stampSlab_store (k : Nat) (s : State) : (stampSlab k s).store = s.store := rfl
@[simp] theorem stampSlab_freeUses (k : Nat) (s : State) : (stampSlab k s).freeUses = s.freeUses := rfl

/-! `countRefused` writes register. -/

@[simp] theorem countRefused_pending (s : State) : (countRefused s).pending = s.pending := rfl
@[simp] theorem countRefused_station (s : State) : (countRefused s).station = s.station := rfl
@[simp] theorem countRefused_settings (s : State) : (countRefused s).settings = s.settings := rfl
@[simp] theorem countRefused_host (s : State) : (countRefused s).host = s.host := rfl
@[simp] theorem countRefused_floor (s : State) : (countRefused s).floor = s.floor := rfl
@[simp] theorem countRefused_peers (s : State) : (countRefused s).peers = s.peers := rfl
@[simp] theorem countRefused_claims (s : State) : (countRefused s).claims = s.claims := rfl
@[simp] theorem countRefused_staged (s : State) : (countRefused s).staged = s.staged := rfl
@[simp] theorem countRefused_active (s : State) : (countRefused s).active = s.active := rfl
@[simp] theorem countRefused_charge (s : State) : (countRefused s).charge = s.charge := rfl
@[simp] theorem countRefused_water (s : State) : (countRefused s).water = s.water := rfl
@[simp] theorem countRefused_sump (s : State) : (countRefused s).sump = s.sump := rfl
@[simp] theorem countRefused_jobs (s : State) : (countRefused s).jobs = s.jobs := rfl
@[simp] theorem countRefused_store (s : State) : (countRefused s).store = s.store := rfl
@[simp] theorem countRefused_freeUses (s : State) : (countRefused s).freeUses = s.freeUses := rfl

/-! `mapClaim` writes claims. -/

@[simp] theorem mapClaim_pending (h : Nat) (f : ClaimEntry → ClaimEntry) (s : State) : (mapClaim h f s).pending = s.pending := rfl
@[simp] theorem mapClaim_station (h : Nat) (f : ClaimEntry → ClaimEntry) (s : State) : (mapClaim h f s).station = s.station := rfl
@[simp] theorem mapClaim_settings (h : Nat) (f : ClaimEntry → ClaimEntry) (s : State) : (mapClaim h f s).settings = s.settings := rfl
@[simp] theorem mapClaim_host (h : Nat) (f : ClaimEntry → ClaimEntry) (s : State) : (mapClaim h f s).host = s.host := rfl
@[simp] theorem mapClaim_floor (h : Nat) (f : ClaimEntry → ClaimEntry) (s : State) : (mapClaim h f s).floor = s.floor := rfl
@[simp] theorem mapClaim_peers (h : Nat) (f : ClaimEntry → ClaimEntry) (s : State) : (mapClaim h f s).peers = s.peers := rfl
@[simp] theorem mapClaim_register (h : Nat) (f : ClaimEntry → ClaimEntry) (s : State) : (mapClaim h f s).register = s.register := rfl
@[simp] theorem mapClaim_staged (h : Nat) (f : ClaimEntry → ClaimEntry) (s : State) : (mapClaim h f s).staged = s.staged := rfl
@[simp] theorem mapClaim_active (h : Nat) (f : ClaimEntry → ClaimEntry) (s : State) : (mapClaim h f s).active = s.active := rfl
@[simp] theorem mapClaim_charge (h : Nat) (f : ClaimEntry → ClaimEntry) (s : State) : (mapClaim h f s).charge = s.charge := rfl
@[simp] theorem mapClaim_water (h : Nat) (f : ClaimEntry → ClaimEntry) (s : State) : (mapClaim h f s).water = s.water := rfl
@[simp] theorem mapClaim_sump (h : Nat) (f : ClaimEntry → ClaimEntry) (s : State) : (mapClaim h f s).sump = s.sump := rfl
@[simp] theorem mapClaim_jobs (h : Nat) (f : ClaimEntry → ClaimEntry) (s : State) : (mapClaim h f s).jobs = s.jobs := rfl
@[simp] theorem mapClaim_store (h : Nat) (f : ClaimEntry → ClaimEntry) (s : State) : (mapClaim h f s).store = s.store := rfl
@[simp] theorem mapClaim_freeUses (h : Nat) (f : ClaimEntry → ClaimEntry) (s : State) : (mapClaim h f s).freeUses = s.freeUses := rfl

/-! `removeClaim` writes claims. -/

@[simp] theorem removeClaim_pending (h : Nat) (s : State) : (removeClaim h s).pending = s.pending := rfl
@[simp] theorem removeClaim_station (h : Nat) (s : State) : (removeClaim h s).station = s.station := rfl
@[simp] theorem removeClaim_settings (h : Nat) (s : State) : (removeClaim h s).settings = s.settings := rfl
@[simp] theorem removeClaim_host (h : Nat) (s : State) : (removeClaim h s).host = s.host := rfl
@[simp] theorem removeClaim_floor (h : Nat) (s : State) : (removeClaim h s).floor = s.floor := rfl
@[simp] theorem removeClaim_peers (h : Nat) (s : State) : (removeClaim h s).peers = s.peers := rfl
@[simp] theorem removeClaim_register (h : Nat) (s : State) : (removeClaim h s).register = s.register := rfl
@[simp] theorem removeClaim_staged (h : Nat) (s : State) : (removeClaim h s).staged = s.staged := rfl
@[simp] theorem removeClaim_active (h : Nat) (s : State) : (removeClaim h s).active = s.active := rfl
@[simp] theorem removeClaim_charge (h : Nat) (s : State) : (removeClaim h s).charge = s.charge := rfl
@[simp] theorem removeClaim_water (h : Nat) (s : State) : (removeClaim h s).water = s.water := rfl
@[simp] theorem removeClaim_sump (h : Nat) (s : State) : (removeClaim h s).sump = s.sump := rfl
@[simp] theorem removeClaim_jobs (h : Nat) (s : State) : (removeClaim h s).jobs = s.jobs := rfl
@[simp] theorem removeClaim_store (h : Nat) (s : State) : (removeClaim h s).store = s.store := rfl
@[simp] theorem removeClaim_freeUses (h : Nat) (s : State) : (removeClaim h s).freeUses = s.freeUses := rfl

/-! `claimSettles` writes claims. -/

@[simp] theorem claimSettles_pending (h : Nat) (s : State) : (claimSettles h s).pending = s.pending := rfl
@[simp] theorem claimSettles_station (h : Nat) (s : State) : (claimSettles h s).station = s.station := rfl
@[simp] theorem claimSettles_settings (h : Nat) (s : State) : (claimSettles h s).settings = s.settings := rfl
@[simp] theorem claimSettles_host (h : Nat) (s : State) : (claimSettles h s).host = s.host := rfl
@[simp] theorem claimSettles_floor (h : Nat) (s : State) : (claimSettles h s).floor = s.floor := rfl
@[simp] theorem claimSettles_peers (h : Nat) (s : State) : (claimSettles h s).peers = s.peers := rfl
@[simp] theorem claimSettles_register (h : Nat) (s : State) : (claimSettles h s).register = s.register := rfl
@[simp] theorem claimSettles_staged (h : Nat) (s : State) : (claimSettles h s).staged = s.staged := rfl
@[simp] theorem claimSettles_active (h : Nat) (s : State) : (claimSettles h s).active = s.active := rfl
@[simp] theorem claimSettles_charge (h : Nat) (s : State) : (claimSettles h s).charge = s.charge := rfl
@[simp] theorem claimSettles_water (h : Nat) (s : State) : (claimSettles h s).water = s.water := rfl
@[simp] theorem claimSettles_sump (h : Nat) (s : State) : (claimSettles h s).sump = s.sump := rfl
@[simp] theorem claimSettles_jobs (h : Nat) (s : State) : (claimSettles h s).jobs = s.jobs := rfl
@[simp] theorem claimSettles_store (h : Nat) (s : State) : (claimSettles h s).store = s.store := rfl
@[simp] theorem claimSettles_freeUses (h : Nat) (s : State) : (claimSettles h s).freeUses = s.freeUses := rfl

/-! `countBacklog` writes floor. -/

@[simp] theorem countBacklog_pending (s : State) : (countBacklog s).pending = s.pending := rfl
@[simp] theorem countBacklog_station (s : State) : (countBacklog s).station = s.station := rfl
@[simp] theorem countBacklog_settings (s : State) : (countBacklog s).settings = s.settings := rfl
@[simp] theorem countBacklog_host (s : State) : (countBacklog s).host = s.host := rfl
@[simp] theorem countBacklog_peers (s : State) : (countBacklog s).peers = s.peers := rfl
@[simp] theorem countBacklog_register (s : State) : (countBacklog s).register = s.register := rfl
@[simp] theorem countBacklog_claims (s : State) : (countBacklog s).claims = s.claims := rfl
@[simp] theorem countBacklog_staged (s : State) : (countBacklog s).staged = s.staged := rfl
@[simp] theorem countBacklog_active (s : State) : (countBacklog s).active = s.active := rfl
@[simp] theorem countBacklog_charge (s : State) : (countBacklog s).charge = s.charge := rfl
@[simp] theorem countBacklog_water (s : State) : (countBacklog s).water = s.water := rfl
@[simp] theorem countBacklog_sump (s : State) : (countBacklog s).sump = s.sump := rfl
@[simp] theorem countBacklog_jobs (s : State) : (countBacklog s).jobs = s.jobs := rfl
@[simp] theorem countBacklog_store (s : State) : (countBacklog s).store = s.store := rfl
@[simp] theorem countBacklog_freeUses (s : State) : (countBacklog s).freeUses = s.freeUses := rfl

/-! `ownerDropped` writes claims. -/

@[simp] theorem ownerDropped_pending (e : TxEntry) (s : State) : (ownerDropped e s).pending = s.pending := by
  unfold ownerDropped; split <;> (try split) <;> rfl
@[simp] theorem ownerDropped_station (e : TxEntry) (s : State) : (ownerDropped e s).station = s.station := by
  unfold ownerDropped; split <;> (try split) <;> rfl
@[simp] theorem ownerDropped_settings (e : TxEntry) (s : State) : (ownerDropped e s).settings = s.settings := by
  unfold ownerDropped; split <;> (try split) <;> rfl
@[simp] theorem ownerDropped_host (e : TxEntry) (s : State) : (ownerDropped e s).host = s.host := by
  unfold ownerDropped; split <;> (try split) <;> rfl
@[simp] theorem ownerDropped_floor (e : TxEntry) (s : State) : (ownerDropped e s).floor = s.floor := by
  unfold ownerDropped; split <;> (try split) <;> rfl
@[simp] theorem ownerDropped_peers (e : TxEntry) (s : State) : (ownerDropped e s).peers = s.peers := by
  unfold ownerDropped; split <;> (try split) <;> rfl
@[simp] theorem ownerDropped_register (e : TxEntry) (s : State) : (ownerDropped e s).register = s.register := by
  unfold ownerDropped; split <;> (try split) <;> rfl
@[simp] theorem ownerDropped_staged (e : TxEntry) (s : State) : (ownerDropped e s).staged = s.staged := by
  unfold ownerDropped; split <;> (try split) <;> rfl
@[simp] theorem ownerDropped_active (e : TxEntry) (s : State) : (ownerDropped e s).active = s.active := by
  unfold ownerDropped; split <;> (try split) <;> rfl
@[simp] theorem ownerDropped_charge (e : TxEntry) (s : State) : (ownerDropped e s).charge = s.charge := by
  unfold ownerDropped; split <;> (try split) <;> rfl
@[simp] theorem ownerDropped_water (e : TxEntry) (s : State) : (ownerDropped e s).water = s.water := by
  unfold ownerDropped; split <;> (try split) <;> rfl
@[simp] theorem ownerDropped_sump (e : TxEntry) (s : State) : (ownerDropped e s).sump = s.sump := by
  unfold ownerDropped; split <;> (try split) <;> rfl
@[simp] theorem ownerDropped_jobs (e : TxEntry) (s : State) : (ownerDropped e s).jobs = s.jobs := by
  unfold ownerDropped; split <;> (try split) <;> rfl
@[simp] theorem ownerDropped_store (e : TxEntry) (s : State) : (ownerDropped e s).store = s.store := by
  unfold ownerDropped; split <;> (try split) <;> rfl
@[simp] theorem ownerDropped_freeUses (e : TxEntry) (s : State) : (ownerDropped e s).freeUses = s.freeUses := by
  unfold ownerDropped; split <;> (try split) <;> rfl

/-! `handNotice` writes host, floor, claims. -/

@[simp] theorem handNotice_pending (n : Notice) (w : Option Nat) (s : State) : (handNotice n w s).pending = s.pending := by
  unfold handNotice; split <;> simp
@[simp] theorem handNotice_station (n : Notice) (w : Option Nat) (s : State) : (handNotice n w s).station = s.station := by
  unfold handNotice; split <;> simp
@[simp] theorem handNotice_settings (n : Notice) (w : Option Nat) (s : State) : (handNotice n w s).settings = s.settings := by
  unfold handNotice; split <;> simp
@[simp] theorem handNotice_peers (n : Notice) (w : Option Nat) (s : State) : (handNotice n w s).peers = s.peers := by
  unfold handNotice; split <;> simp
@[simp] theorem handNotice_register (n : Notice) (w : Option Nat) (s : State) : (handNotice n w s).register = s.register := by
  unfold handNotice; split <;> simp
@[simp] theorem handNotice_staged (n : Notice) (w : Option Nat) (s : State) : (handNotice n w s).staged = s.staged := by
  unfold handNotice; split <;> simp
@[simp] theorem handNotice_active (n : Notice) (w : Option Nat) (s : State) : (handNotice n w s).active = s.active := by
  unfold handNotice; split <;> simp
@[simp] theorem handNotice_charge (n : Notice) (w : Option Nat) (s : State) : (handNotice n w s).charge = s.charge := by
  unfold handNotice; split <;> simp
@[simp] theorem handNotice_water (n : Notice) (w : Option Nat) (s : State) : (handNotice n w s).water = s.water := by
  unfold handNotice; split <;> simp
@[simp] theorem handNotice_sump (n : Notice) (w : Option Nat) (s : State) : (handNotice n w s).sump = s.sump := by
  unfold handNotice; split <;> simp
@[simp] theorem handNotice_jobs (n : Notice) (w : Option Nat) (s : State) : (handNotice n w s).jobs = s.jobs := by
  unfold handNotice; split <;> simp
@[simp] theorem handNotice_store (n : Notice) (w : Option Nat) (s : State) : (handNotice n w s).store = s.store := by
  unfold handNotice; split <;> simp
@[simp] theorem handNotice_freeUses (n : Notice) (w : Option Nat) (s : State) : (handNotice n w s).freeUses = s.freeUses := by
  unfold handNotice; split <;> simp

/-! `announce` writes host, floor, claims. -/

@[simp] theorem announce_pending (n : Notice) (s : State) : (announce n s).pending = s.pending := by
  unfold announce; split <;> simp
@[simp] theorem announce_station (n : Notice) (s : State) : (announce n s).station = s.station := by
  unfold announce; split <;> simp
@[simp] theorem announce_settings (n : Notice) (s : State) : (announce n s).settings = s.settings := by
  unfold announce; split <;> simp
@[simp] theorem announce_peers (n : Notice) (s : State) : (announce n s).peers = s.peers := by
  unfold announce; split <;> simp
@[simp] theorem announce_register (n : Notice) (s : State) : (announce n s).register = s.register := by
  unfold announce; split <;> simp
@[simp] theorem announce_staged (n : Notice) (s : State) : (announce n s).staged = s.staged := by
  unfold announce; split <;> simp
@[simp] theorem announce_active (n : Notice) (s : State) : (announce n s).active = s.active := by
  unfold announce; split <;> simp
@[simp] theorem announce_charge (n : Notice) (s : State) : (announce n s).charge = s.charge := by
  unfold announce; split <;> simp
@[simp] theorem announce_water (n : Notice) (s : State) : (announce n s).water = s.water := by
  unfold announce; split <;> simp
@[simp] theorem announce_sump (n : Notice) (s : State) : (announce n s).sump = s.sump := by
  unfold announce; split <;> simp
@[simp] theorem announce_jobs (n : Notice) (s : State) : (announce n s).jobs = s.jobs := by
  unfold announce; split <;> simp
@[simp] theorem announce_store (n : Notice) (s : State) : (announce n s).store = s.store := by
  unfold announce; split <;> simp
@[simp] theorem announce_freeUses (n : Notice) (s : State) : (announce n s).freeUses = s.freeUses := by
  unfold announce; split <;> simp

/-! `announceSlab` writes host, floor, claims. -/

@[simp] theorem announceSlab_pending (k : Nat) (s : State) : (announceSlab k s).pending = s.pending := by
  simp [announceSlab]
@[simp] theorem announceSlab_station (k : Nat) (s : State) : (announceSlab k s).station = s.station := by
  simp [announceSlab]
@[simp] theorem announceSlab_settings (k : Nat) (s : State) : (announceSlab k s).settings = s.settings := by
  simp [announceSlab]
@[simp] theorem announceSlab_peers (k : Nat) (s : State) : (announceSlab k s).peers = s.peers := by
  simp [announceSlab]
@[simp] theorem announceSlab_register (k : Nat) (s : State) : (announceSlab k s).register = s.register := by
  simp [announceSlab]
@[simp] theorem announceSlab_staged (k : Nat) (s : State) : (announceSlab k s).staged = s.staged := by
  simp [announceSlab]
@[simp] theorem announceSlab_active (k : Nat) (s : State) : (announceSlab k s).active = s.active := by
  simp [announceSlab]
@[simp] theorem announceSlab_charge (k : Nat) (s : State) : (announceSlab k s).charge = s.charge := by
  simp [announceSlab]
@[simp] theorem announceSlab_water (k : Nat) (s : State) : (announceSlab k s).water = s.water := by
  simp [announceSlab]
@[simp] theorem announceSlab_sump (k : Nat) (s : State) : (announceSlab k s).sump = s.sump := by
  simp [announceSlab]
@[simp] theorem announceSlab_jobs (k : Nat) (s : State) : (announceSlab k s).jobs = s.jobs := by
  simp [announceSlab]
@[simp] theorem announceSlab_store (k : Nat) (s : State) : (announceSlab k s).store = s.store := by
  simp [announceSlab]
@[simp] theorem announceSlab_freeUses (k : Nat) (s : State) : (announceSlab k s).freeUses = s.freeUses := by
  simp [announceSlab]

/-! `mapJob` writes jobs. -/

@[simp] theorem mapJob_pending (k : Nat) (f : JobRecord → JobRecord) (s : State) : (mapJob k f s).pending = s.pending := rfl
@[simp] theorem mapJob_station (k : Nat) (f : JobRecord → JobRecord) (s : State) : (mapJob k f s).station = s.station := rfl
@[simp] theorem mapJob_settings (k : Nat) (f : JobRecord → JobRecord) (s : State) : (mapJob k f s).settings = s.settings := rfl
@[simp] theorem mapJob_host (k : Nat) (f : JobRecord → JobRecord) (s : State) : (mapJob k f s).host = s.host := rfl
@[simp] theorem mapJob_floor (k : Nat) (f : JobRecord → JobRecord) (s : State) : (mapJob k f s).floor = s.floor := rfl
@[simp] theorem mapJob_peers (k : Nat) (f : JobRecord → JobRecord) (s : State) : (mapJob k f s).peers = s.peers := rfl
@[simp] theorem mapJob_register (k : Nat) (f : JobRecord → JobRecord) (s : State) : (mapJob k f s).register = s.register := rfl
@[simp] theorem mapJob_claims (k : Nat) (f : JobRecord → JobRecord) (s : State) : (mapJob k f s).claims = s.claims := rfl
@[simp] theorem mapJob_staged (k : Nat) (f : JobRecord → JobRecord) (s : State) : (mapJob k f s).staged = s.staged := rfl
@[simp] theorem mapJob_active (k : Nat) (f : JobRecord → JobRecord) (s : State) : (mapJob k f s).active = s.active := rfl
@[simp] theorem mapJob_charge (k : Nat) (f : JobRecord → JobRecord) (s : State) : (mapJob k f s).charge = s.charge := rfl
@[simp] theorem mapJob_water (k : Nat) (f : JobRecord → JobRecord) (s : State) : (mapJob k f s).water = s.water := rfl
@[simp] theorem mapJob_sump (k : Nat) (f : JobRecord → JobRecord) (s : State) : (mapJob k f s).sump = s.sump := rfl
@[simp] theorem mapJob_store (k : Nat) (f : JobRecord → JobRecord) (s : State) : (mapJob k f s).store = s.store := rfl
@[simp] theorem mapJob_freeUses (k : Nat) (f : JobRecord → JobRecord) (s : State) : (mapJob k f s).freeUses = s.freeUses := rfl

/-! `storeJob` writes store. -/

@[simp] theorem storeJob_pending (k : Nat) (s : State) : (storeJob k s).pending = s.pending := by
  unfold storeJob; cases jobPlace s k <;> simp
@[simp] theorem storeJob_station (k : Nat) (s : State) : (storeJob k s).station = s.station := by
  unfold storeJob; cases jobPlace s k <;> simp
@[simp] theorem storeJob_settings (k : Nat) (s : State) : (storeJob k s).settings = s.settings := by
  unfold storeJob; cases jobPlace s k <;> simp
@[simp] theorem storeJob_host (k : Nat) (s : State) : (storeJob k s).host = s.host := by
  unfold storeJob; cases jobPlace s k <;> simp
@[simp] theorem storeJob_floor (k : Nat) (s : State) : (storeJob k s).floor = s.floor := by
  unfold storeJob; cases jobPlace s k <;> simp
@[simp] theorem storeJob_peers (k : Nat) (s : State) : (storeJob k s).peers = s.peers := by
  unfold storeJob; cases jobPlace s k <;> simp
@[simp] theorem storeJob_register (k : Nat) (s : State) : (storeJob k s).register = s.register := by
  unfold storeJob; cases jobPlace s k <;> simp
@[simp] theorem storeJob_claims (k : Nat) (s : State) : (storeJob k s).claims = s.claims := by
  unfold storeJob; cases jobPlace s k <;> simp
@[simp] theorem storeJob_staged (k : Nat) (s : State) : (storeJob k s).staged = s.staged := by
  unfold storeJob; cases jobPlace s k <;> simp
@[simp] theorem storeJob_active (k : Nat) (s : State) : (storeJob k s).active = s.active := by
  unfold storeJob; cases jobPlace s k <;> simp
@[simp] theorem storeJob_charge (k : Nat) (s : State) : (storeJob k s).charge = s.charge := by
  unfold storeJob; cases jobPlace s k <;> simp
@[simp] theorem storeJob_water (k : Nat) (s : State) : (storeJob k s).water = s.water := by
  unfold storeJob; cases jobPlace s k <;> simp
@[simp] theorem storeJob_sump (k : Nat) (s : State) : (storeJob k s).sump = s.sump := by
  unfold storeJob; cases jobPlace s k <;> simp
@[simp] theorem storeJob_jobs (k : Nat) (s : State) : (storeJob k s).jobs = s.jobs := by
  unfold storeJob; cases jobPlace s k <;> simp
@[simp] theorem storeJob_freeUses (k : Nat) (s : State) : (storeJob k s).freeUses = s.freeUses := by
  unfold storeJob; cases jobPlace s k <;> simp

/-! `removeSlab` writes register, store. -/

@[simp] theorem removeSlab_pending (k : Nat) (s : State) : (removeSlab k s).pending = s.pending := by
  simp [removeSlab]
@[simp] theorem removeSlab_station (k : Nat) (s : State) : (removeSlab k s).station = s.station := by
  simp [removeSlab]
@[simp] theorem removeSlab_settings (k : Nat) (s : State) : (removeSlab k s).settings = s.settings := by
  simp [removeSlab]
@[simp] theorem removeSlab_host (k : Nat) (s : State) : (removeSlab k s).host = s.host := by
  simp [removeSlab]
@[simp] theorem removeSlab_floor (k : Nat) (s : State) : (removeSlab k s).floor = s.floor := by
  simp [removeSlab]
@[simp] theorem removeSlab_peers (k : Nat) (s : State) : (removeSlab k s).peers = s.peers := by
  simp [removeSlab]
@[simp] theorem removeSlab_claims (k : Nat) (s : State) : (removeSlab k s).claims = s.claims := by
  simp [removeSlab]
@[simp] theorem removeSlab_staged (k : Nat) (s : State) : (removeSlab k s).staged = s.staged := by
  simp [removeSlab]
@[simp] theorem removeSlab_active (k : Nat) (s : State) : (removeSlab k s).active = s.active := by
  simp [removeSlab]
@[simp] theorem removeSlab_charge (k : Nat) (s : State) : (removeSlab k s).charge = s.charge := by
  simp [removeSlab]
@[simp] theorem removeSlab_water (k : Nat) (s : State) : (removeSlab k s).water = s.water := by
  simp [removeSlab]
@[simp] theorem removeSlab_sump (k : Nat) (s : State) : (removeSlab k s).sump = s.sump := by
  simp [removeSlab]
@[simp] theorem removeSlab_jobs (k : Nat) (s : State) : (removeSlab k s).jobs = s.jobs := by
  simp [removeSlab]
@[simp] theorem removeSlab_freeUses (k : Nat) (s : State) : (removeSlab k s).freeUses = s.freeUses := by
  simp [removeSlab]

/-! `advanceSerial` writes register, store. -/

@[simp] theorem advanceSerial_pending (s : State) : (advanceSerial s).pending = s.pending := by
  simp [advanceSerial]
@[simp] theorem advanceSerial_station (s : State) : (advanceSerial s).station = s.station := by
  simp [advanceSerial]
@[simp] theorem advanceSerial_settings (s : State) : (advanceSerial s).settings = s.settings := by
  simp [advanceSerial]
@[simp] theorem advanceSerial_host (s : State) : (advanceSerial s).host = s.host := by
  simp [advanceSerial]
@[simp] theorem advanceSerial_floor (s : State) : (advanceSerial s).floor = s.floor := by
  simp [advanceSerial]
@[simp] theorem advanceSerial_peers (s : State) : (advanceSerial s).peers = s.peers := by
  simp [advanceSerial]
@[simp] theorem advanceSerial_claims (s : State) : (advanceSerial s).claims = s.claims := by
  simp [advanceSerial]
@[simp] theorem advanceSerial_staged (s : State) : (advanceSerial s).staged = s.staged := by
  simp [advanceSerial]
@[simp] theorem advanceSerial_active (s : State) : (advanceSerial s).active = s.active := by
  simp [advanceSerial]
@[simp] theorem advanceSerial_charge (s : State) : (advanceSerial s).charge = s.charge := by
  simp [advanceSerial]
@[simp] theorem advanceSerial_water (s : State) : (advanceSerial s).water = s.water := by
  simp [advanceSerial]
@[simp] theorem advanceSerial_sump (s : State) : (advanceSerial s).sump = s.sump := by
  simp [advanceSerial]
@[simp] theorem advanceSerial_jobs (s : State) : (advanceSerial s).jobs = s.jobs := by
  simp [advanceSerial]
@[simp] theorem advanceSerial_freeUses (s : State) : (advanceSerial s).freeUses = s.freeUses := by
  simp [advanceSerial]

/-! `makeSlab` writes register, store. -/

@[simp] theorem makeSlab_pending (k : Nat) (c : SlabContents) (s : State) : (makeSlab k c s).pending = s.pending := by
  unfold makeSlab; split <;> simp
@[simp] theorem makeSlab_station (k : Nat) (c : SlabContents) (s : State) : (makeSlab k c s).station = s.station := by
  unfold makeSlab; split <;> simp
@[simp] theorem makeSlab_settings (k : Nat) (c : SlabContents) (s : State) : (makeSlab k c s).settings = s.settings := by
  unfold makeSlab; split <;> simp
@[simp] theorem makeSlab_host (k : Nat) (c : SlabContents) (s : State) : (makeSlab k c s).host = s.host := by
  unfold makeSlab; split <;> simp
@[simp] theorem makeSlab_floor (k : Nat) (c : SlabContents) (s : State) : (makeSlab k c s).floor = s.floor := by
  unfold makeSlab; split <;> simp
@[simp] theorem makeSlab_peers (k : Nat) (c : SlabContents) (s : State) : (makeSlab k c s).peers = s.peers := by
  unfold makeSlab; split <;> simp
@[simp] theorem makeSlab_claims (k : Nat) (c : SlabContents) (s : State) : (makeSlab k c s).claims = s.claims := by
  unfold makeSlab; split <;> simp
@[simp] theorem makeSlab_staged (k : Nat) (c : SlabContents) (s : State) : (makeSlab k c s).staged = s.staged := by
  unfold makeSlab; split <;> simp
@[simp] theorem makeSlab_active (k : Nat) (c : SlabContents) (s : State) : (makeSlab k c s).active = s.active := by
  unfold makeSlab; split <;> simp
@[simp] theorem makeSlab_charge (k : Nat) (c : SlabContents) (s : State) : (makeSlab k c s).charge = s.charge := by
  unfold makeSlab; split <;> simp
@[simp] theorem makeSlab_water (k : Nat) (c : SlabContents) (s : State) : (makeSlab k c s).water = s.water := by
  unfold makeSlab; split <;> simp
@[simp] theorem makeSlab_sump (k : Nat) (c : SlabContents) (s : State) : (makeSlab k c s).sump = s.sump := by
  unfold makeSlab; split <;> simp
@[simp] theorem makeSlab_jobs (k : Nat) (c : SlabContents) (s : State) : (makeSlab k c s).jobs = s.jobs := by
  unfold makeSlab; split <;> simp
@[simp] theorem makeSlab_freeUses (k : Nat) (c : SlabContents) (s : State) : (makeSlab k c s).freeUses = s.freeUses := by
  unfold makeSlab; split <;> simp

/-! `dropReservations` writes register. -/

@[simp] theorem dropReservations_pending (n : Nat) (s : State) : (dropReservations n s).pending = s.pending := rfl
@[simp] theorem dropReservations_station (n : Nat) (s : State) : (dropReservations n s).station = s.station := rfl
@[simp] theorem dropReservations_settings (n : Nat) (s : State) : (dropReservations n s).settings = s.settings := rfl
@[simp] theorem dropReservations_host (n : Nat) (s : State) : (dropReservations n s).host = s.host := rfl
@[simp] theorem dropReservations_floor (n : Nat) (s : State) : (dropReservations n s).floor = s.floor := rfl
@[simp] theorem dropReservations_peers (n : Nat) (s : State) : (dropReservations n s).peers = s.peers := rfl
@[simp] theorem dropReservations_claims (n : Nat) (s : State) : (dropReservations n s).claims = s.claims := rfl
@[simp] theorem dropReservations_staged (n : Nat) (s : State) : (dropReservations n s).staged = s.staged := rfl
@[simp] theorem dropReservations_active (n : Nat) (s : State) : (dropReservations n s).active = s.active := rfl
@[simp] theorem dropReservations_charge (n : Nat) (s : State) : (dropReservations n s).charge = s.charge := rfl
@[simp] theorem dropReservations_water (n : Nat) (s : State) : (dropReservations n s).water = s.water := rfl
@[simp] theorem dropReservations_sump (n : Nat) (s : State) : (dropReservations n s).sump = s.sump := rfl
@[simp] theorem dropReservations_jobs (n : Nat) (s : State) : (dropReservations n s).jobs = s.jobs := rfl
@[simp] theorem dropReservations_store (n : Nat) (s : State) : (dropReservations n s).store = s.store := rfl
@[simp] theorem dropReservations_freeUses (n : Nat) (s : State) : (dropReservations n s).freeUses = s.freeUses := rfl

/-! `sweepStep` writes register, host, floor, claims. -/

@[simp] theorem sweepStep_pending (n : Nat) (s : State) : (sweepStep n s).pending = s.pending := by
  unfold sweepStep; split <;> simp
@[simp] theorem sweepStep_station (n : Nat) (s : State) : (sweepStep n s).station = s.station := by
  unfold sweepStep; split <;> simp
@[simp] theorem sweepStep_settings (n : Nat) (s : State) : (sweepStep n s).settings = s.settings := by
  unfold sweepStep; split <;> simp
@[simp] theorem sweepStep_peers (n : Nat) (s : State) : (sweepStep n s).peers = s.peers := by
  unfold sweepStep; split <;> simp
@[simp] theorem sweepStep_staged (n : Nat) (s : State) : (sweepStep n s).staged = s.staged := by
  unfold sweepStep; split <;> simp
@[simp] theorem sweepStep_active (n : Nat) (s : State) : (sweepStep n s).active = s.active := by
  unfold sweepStep; split <;> simp
@[simp] theorem sweepStep_charge (n : Nat) (s : State) : (sweepStep n s).charge = s.charge := by
  unfold sweepStep; split <;> simp
@[simp] theorem sweepStep_water (n : Nat) (s : State) : (sweepStep n s).water = s.water := by
  unfold sweepStep; split <;> simp
@[simp] theorem sweepStep_sump (n : Nat) (s : State) : (sweepStep n s).sump = s.sump := by
  unfold sweepStep; split <;> simp
@[simp] theorem sweepStep_jobs (n : Nat) (s : State) : (sweepStep n s).jobs = s.jobs := by
  unfold sweepStep; split <;> simp
@[simp] theorem sweepStep_store (n : Nat) (s : State) : (sweepStep n s).store = s.store := by
  unfold sweepStep; split <;> simp
@[simp] theorem sweepStep_freeUses (n : Nat) (s : State) : (sweepStep n s).freeUses = s.freeUses := by
  unfold sweepStep; split <;> simp

/-! `startSweep` writes register, host, floor, claims. -/

@[simp] theorem startSweep_pending (s : State) : (startSweep s).pending = s.pending := by
  simp [startSweep]
@[simp] theorem startSweep_station (s : State) : (startSweep s).station = s.station := by
  simp [startSweep]
@[simp] theorem startSweep_settings (s : State) : (startSweep s).settings = s.settings := by
  simp [startSweep]
@[simp] theorem startSweep_peers (s : State) : (startSweep s).peers = s.peers := by
  simp [startSweep]
@[simp] theorem startSweep_staged (s : State) : (startSweep s).staged = s.staged := by
  simp [startSweep]
@[simp] theorem startSweep_active (s : State) : (startSweep s).active = s.active := by
  simp [startSweep]
@[simp] theorem startSweep_charge (s : State) : (startSweep s).charge = s.charge := by
  simp [startSweep]
@[simp] theorem startSweep_water (s : State) : (startSweep s).water = s.water := by
  simp [startSweep]
@[simp] theorem startSweep_sump (s : State) : (startSweep s).sump = s.sump := by
  simp [startSweep]
@[simp] theorem startSweep_jobs (s : State) : (startSweep s).jobs = s.jobs := by
  simp [startSweep]
@[simp] theorem startSweep_store (s : State) : (startSweep s).store = s.store := by
  simp [startSweep]
@[simp] theorem startSweep_freeUses (s : State) : (startSweep s).freeUses = s.freeUses := by
  simp [startSweep]

/-! `pressRetry` writes sump. -/

@[simp] theorem pressRetry_pending (s : State) : (pressRetry s).pending = s.pending := rfl
@[simp] theorem pressRetry_station (s : State) : (pressRetry s).station = s.station := rfl
@[simp] theorem pressRetry_settings (s : State) : (pressRetry s).settings = s.settings := rfl
@[simp] theorem pressRetry_host (s : State) : (pressRetry s).host = s.host := rfl
@[simp] theorem pressRetry_floor (s : State) : (pressRetry s).floor = s.floor := rfl
@[simp] theorem pressRetry_peers (s : State) : (pressRetry s).peers = s.peers := rfl
@[simp] theorem pressRetry_register (s : State) : (pressRetry s).register = s.register := rfl
@[simp] theorem pressRetry_claims (s : State) : (pressRetry s).claims = s.claims := rfl
@[simp] theorem pressRetry_staged (s : State) : (pressRetry s).staged = s.staged := rfl
@[simp] theorem pressRetry_active (s : State) : (pressRetry s).active = s.active := rfl
@[simp] theorem pressRetry_charge (s : State) : (pressRetry s).charge = s.charge := rfl
@[simp] theorem pressRetry_water (s : State) : (pressRetry s).water = s.water := rfl
@[simp] theorem pressRetry_jobs (s : State) : (pressRetry s).jobs = s.jobs := rfl
@[simp] theorem pressRetry_store (s : State) : (pressRetry s).store = s.store := rfl
@[simp] theorem pressRetry_freeUses (s : State) : (pressRetry s).freeUses = s.freeUses := rfl

/-! `pressGranted` writes sump. -/

@[simp] theorem pressGranted_pending (s : State) : (pressGranted s).pending = s.pending := rfl
@[simp] theorem pressGranted_station (s : State) : (pressGranted s).station = s.station := rfl
@[simp] theorem pressGranted_settings (s : State) : (pressGranted s).settings = s.settings := rfl
@[simp] theorem pressGranted_host (s : State) : (pressGranted s).host = s.host := rfl
@[simp] theorem pressGranted_floor (s : State) : (pressGranted s).floor = s.floor := rfl
@[simp] theorem pressGranted_peers (s : State) : (pressGranted s).peers = s.peers := rfl
@[simp] theorem pressGranted_register (s : State) : (pressGranted s).register = s.register := rfl
@[simp] theorem pressGranted_claims (s : State) : (pressGranted s).claims = s.claims := rfl
@[simp] theorem pressGranted_staged (s : State) : (pressGranted s).staged = s.staged := rfl
@[simp] theorem pressGranted_active (s : State) : (pressGranted s).active = s.active := rfl
@[simp] theorem pressGranted_charge (s : State) : (pressGranted s).charge = s.charge := rfl
@[simp] theorem pressGranted_water (s : State) : (pressGranted s).water = s.water := rfl
@[simp] theorem pressGranted_jobs (s : State) : (pressGranted s).jobs = s.jobs := rfl
@[simp] theorem pressGranted_store (s : State) : (pressGranted s).store = s.store := rfl
@[simp] theorem pressGranted_freeUses (s : State) : (pressGranted s).freeUses = s.freeUses := rfl

/-! `pressIdle` writes sump. -/

@[simp] theorem pressIdle_pending (s : State) : (pressIdle s).pending = s.pending := rfl
@[simp] theorem pressIdle_station (s : State) : (pressIdle s).station = s.station := rfl
@[simp] theorem pressIdle_settings (s : State) : (pressIdle s).settings = s.settings := rfl
@[simp] theorem pressIdle_host (s : State) : (pressIdle s).host = s.host := rfl
@[simp] theorem pressIdle_floor (s : State) : (pressIdle s).floor = s.floor := rfl
@[simp] theorem pressIdle_peers (s : State) : (pressIdle s).peers = s.peers := rfl
@[simp] theorem pressIdle_register (s : State) : (pressIdle s).register = s.register := rfl
@[simp] theorem pressIdle_claims (s : State) : (pressIdle s).claims = s.claims := rfl
@[simp] theorem pressIdle_staged (s : State) : (pressIdle s).staged = s.staged := rfl
@[simp] theorem pressIdle_active (s : State) : (pressIdle s).active = s.active := rfl
@[simp] theorem pressIdle_charge (s : State) : (pressIdle s).charge = s.charge := rfl
@[simp] theorem pressIdle_water (s : State) : (pressIdle s).water = s.water := rfl
@[simp] theorem pressIdle_jobs (s : State) : (pressIdle s).jobs = s.jobs := rfl
@[simp] theorem pressIdle_store (s : State) : (pressIdle s).store = s.store := rfl
@[simp] theorem pressIdle_freeUses (s : State) : (pressIdle s).freeUses = s.freeUses := rfl

/-! `pressOutcome` writes sump. -/

@[simp] theorem pressOutcome_pending (r : ClaimResult) (s : State) : (pressOutcome r s).pending = s.pending := by
  unfold pressOutcome; split <;> cases r <;> rfl
@[simp] theorem pressOutcome_station (r : ClaimResult) (s : State) : (pressOutcome r s).station = s.station := by
  unfold pressOutcome; split <;> cases r <;> rfl
@[simp] theorem pressOutcome_settings (r : ClaimResult) (s : State) : (pressOutcome r s).settings = s.settings := by
  unfold pressOutcome; split <;> cases r <;> rfl
@[simp] theorem pressOutcome_host (r : ClaimResult) (s : State) : (pressOutcome r s).host = s.host := by
  unfold pressOutcome; split <;> cases r <;> rfl
@[simp] theorem pressOutcome_floor (r : ClaimResult) (s : State) : (pressOutcome r s).floor = s.floor := by
  unfold pressOutcome; split <;> cases r <;> rfl
@[simp] theorem pressOutcome_peers (r : ClaimResult) (s : State) : (pressOutcome r s).peers = s.peers := by
  unfold pressOutcome; split <;> cases r <;> rfl
@[simp] theorem pressOutcome_register (r : ClaimResult) (s : State) : (pressOutcome r s).register = s.register := by
  unfold pressOutcome; split <;> cases r <;> rfl
@[simp] theorem pressOutcome_claims (r : ClaimResult) (s : State) : (pressOutcome r s).claims = s.claims := by
  unfold pressOutcome; split <;> cases r <;> rfl
@[simp] theorem pressOutcome_staged (r : ClaimResult) (s : State) : (pressOutcome r s).staged = s.staged := by
  unfold pressOutcome; split <;> cases r <;> rfl
@[simp] theorem pressOutcome_active (r : ClaimResult) (s : State) : (pressOutcome r s).active = s.active := by
  unfold pressOutcome; split <;> cases r <;> rfl
@[simp] theorem pressOutcome_charge (r : ClaimResult) (s : State) : (pressOutcome r s).charge = s.charge := by
  unfold pressOutcome; split <;> cases r <;> rfl
@[simp] theorem pressOutcome_water (r : ClaimResult) (s : State) : (pressOutcome r s).water = s.water := by
  unfold pressOutcome; split <;> cases r <;> rfl
@[simp] theorem pressOutcome_jobs (r : ClaimResult) (s : State) : (pressOutcome r s).jobs = s.jobs := by
  unfold pressOutcome; split <;> cases r <;> rfl
@[simp] theorem pressOutcome_store (r : ClaimResult) (s : State) : (pressOutcome r s).store = s.store := by
  unfold pressOutcome; split <;> cases r <;> rfl
@[simp] theorem pressOutcome_freeUses (r : ClaimResult) (s : State) : (pressOutcome r s).freeUses = s.freeUses := by
  unfold pressOutcome; split <;> cases r <;> rfl

/-! `holderOnResult` writes register. -/

@[simp] theorem holderOnResult_pending (k : Nat) (r : ClaimResult) (h : Option Nat) (s : State) : (holderOnResult k r h s).pending = s.pending := by
  cases r <;> rfl
@[simp] theorem holderOnResult_station (k : Nat) (r : ClaimResult) (h : Option Nat) (s : State) : (holderOnResult k r h s).station = s.station := by
  cases r <;> rfl
@[simp] theorem holderOnResult_settings (k : Nat) (r : ClaimResult) (h : Option Nat) (s : State) : (holderOnResult k r h s).settings = s.settings := by
  cases r <;> rfl
@[simp] theorem holderOnResult_host (k : Nat) (r : ClaimResult) (h : Option Nat) (s : State) : (holderOnResult k r h s).host = s.host := by
  cases r <;> rfl
@[simp] theorem holderOnResult_floor (k : Nat) (r : ClaimResult) (h : Option Nat) (s : State) : (holderOnResult k r h s).floor = s.floor := by
  cases r <;> rfl
@[simp] theorem holderOnResult_peers (k : Nat) (r : ClaimResult) (h : Option Nat) (s : State) : (holderOnResult k r h s).peers = s.peers := by
  cases r <;> rfl
@[simp] theorem holderOnResult_claims (k : Nat) (r : ClaimResult) (h : Option Nat) (s : State) : (holderOnResult k r h s).claims = s.claims := by
  cases r <;> rfl
@[simp] theorem holderOnResult_staged (k : Nat) (r : ClaimResult) (h : Option Nat) (s : State) : (holderOnResult k r h s).staged = s.staged := by
  cases r <;> rfl
@[simp] theorem holderOnResult_active (k : Nat) (r : ClaimResult) (h : Option Nat) (s : State) : (holderOnResult k r h s).active = s.active := by
  cases r <;> rfl
@[simp] theorem holderOnResult_charge (k : Nat) (r : ClaimResult) (h : Option Nat) (s : State) : (holderOnResult k r h s).charge = s.charge := by
  cases r <;> rfl
@[simp] theorem holderOnResult_water (k : Nat) (r : ClaimResult) (h : Option Nat) (s : State) : (holderOnResult k r h s).water = s.water := by
  cases r <;> rfl
@[simp] theorem holderOnResult_sump (k : Nat) (r : ClaimResult) (h : Option Nat) (s : State) : (holderOnResult k r h s).sump = s.sump := by
  cases r <;> rfl
@[simp] theorem holderOnResult_jobs (k : Nat) (r : ClaimResult) (h : Option Nat) (s : State) : (holderOnResult k r h s).jobs = s.jobs := by
  cases r <;> rfl
@[simp] theorem holderOnResult_store (k : Nat) (r : ClaimResult) (h : Option Nat) (s : State) : (holderOnResult k r h s).store = s.store := by
  cases r <;> rfl
@[simp] theorem holderOnResult_freeUses (k : Nat) (r : ClaimResult) (h : Option Nat) (s : State) : (holderOnResult k r h s).freeUses = s.freeUses := by
  cases r <;> rfl

/-! `reportResult` writes host, register, sump. -/

@[simp] theorem reportResult_pending (e : ClaimEntry) (r : ClaimResult) (h : Option Nat) (s : State) : (reportResult e r h s).pending = s.pending := by
  unfold reportResult; split <;> simp
@[simp] theorem reportResult_station (e : ClaimEntry) (r : ClaimResult) (h : Option Nat) (s : State) : (reportResult e r h s).station = s.station := by
  unfold reportResult; split <;> simp
@[simp] theorem reportResult_settings (e : ClaimEntry) (r : ClaimResult) (h : Option Nat) (s : State) : (reportResult e r h s).settings = s.settings := by
  unfold reportResult; split <;> simp
@[simp] theorem reportResult_floor (e : ClaimEntry) (r : ClaimResult) (h : Option Nat) (s : State) : (reportResult e r h s).floor = s.floor := by
  unfold reportResult; split <;> simp
@[simp] theorem reportResult_peers (e : ClaimEntry) (r : ClaimResult) (h : Option Nat) (s : State) : (reportResult e r h s).peers = s.peers := by
  unfold reportResult; split <;> simp
@[simp] theorem reportResult_claims (e : ClaimEntry) (r : ClaimResult) (h : Option Nat) (s : State) : (reportResult e r h s).claims = s.claims := by
  unfold reportResult; split <;> simp
@[simp] theorem reportResult_staged (e : ClaimEntry) (r : ClaimResult) (h : Option Nat) (s : State) : (reportResult e r h s).staged = s.staged := by
  unfold reportResult; split <;> simp
@[simp] theorem reportResult_active (e : ClaimEntry) (r : ClaimResult) (h : Option Nat) (s : State) : (reportResult e r h s).active = s.active := by
  unfold reportResult; split <;> simp
@[simp] theorem reportResult_charge (e : ClaimEntry) (r : ClaimResult) (h : Option Nat) (s : State) : (reportResult e r h s).charge = s.charge := by
  unfold reportResult; split <;> simp
@[simp] theorem reportResult_water (e : ClaimEntry) (r : ClaimResult) (h : Option Nat) (s : State) : (reportResult e r h s).water = s.water := by
  unfold reportResult; split <;> simp
@[simp] theorem reportResult_jobs (e : ClaimEntry) (r : ClaimResult) (h : Option Nat) (s : State) : (reportResult e r h s).jobs = s.jobs := by
  unfold reportResult; split <;> simp
@[simp] theorem reportResult_store (e : ClaimEntry) (r : ClaimResult) (h : Option Nat) (s : State) : (reportResult e r h s).store = s.store := by
  unfold reportResult; split <;> simp
@[simp] theorem reportResult_freeUses (e : ClaimEntry) (r : ClaimResult) (h : Option Nat) (s : State) : (reportResult e r h s).freeUses = s.freeUses := by
  unfold reportResult; split <;> simp

/-! `endClaim` writes host, register, sump, claims. -/

@[simp] theorem endClaim_pending (h : Nat) (r : ClaimResult) (k : Option Nat) (s : State) : (endClaim h r k s).pending = s.pending := by
  unfold endClaim; split <;> simp
@[simp] theorem endClaim_station (h : Nat) (r : ClaimResult) (k : Option Nat) (s : State) : (endClaim h r k s).station = s.station := by
  unfold endClaim; split <;> simp
@[simp] theorem endClaim_settings (h : Nat) (r : ClaimResult) (k : Option Nat) (s : State) : (endClaim h r k s).settings = s.settings := by
  unfold endClaim; split <;> simp
@[simp] theorem endClaim_floor (h : Nat) (r : ClaimResult) (k : Option Nat) (s : State) : (endClaim h r k s).floor = s.floor := by
  unfold endClaim; split <;> simp
@[simp] theorem endClaim_peers (h : Nat) (r : ClaimResult) (k : Option Nat) (s : State) : (endClaim h r k s).peers = s.peers := by
  unfold endClaim; split <;> simp
@[simp] theorem endClaim_staged (h : Nat) (r : ClaimResult) (k : Option Nat) (s : State) : (endClaim h r k s).staged = s.staged := by
  unfold endClaim; split <;> simp
@[simp] theorem endClaim_active (h : Nat) (r : ClaimResult) (k : Option Nat) (s : State) : (endClaim h r k s).active = s.active := by
  unfold endClaim; split <;> simp
@[simp] theorem endClaim_charge (h : Nat) (r : ClaimResult) (k : Option Nat) (s : State) : (endClaim h r k s).charge = s.charge := by
  unfold endClaim; split <;> simp
@[simp] theorem endClaim_water (h : Nat) (r : ClaimResult) (k : Option Nat) (s : State) : (endClaim h r k s).water = s.water := by
  unfold endClaim; split <;> simp
@[simp] theorem endClaim_jobs (h : Nat) (r : ClaimResult) (k : Option Nat) (s : State) : (endClaim h r k s).jobs = s.jobs := by
  unfold endClaim; split <;> simp
@[simp] theorem endClaim_store (h : Nat) (r : ClaimResult) (k : Option Nat) (s : State) : (endClaim h r k s).store = s.store := by
  unfold endClaim; split <;> simp
@[simp] theorem endClaim_freeUses (h : Nat) (r : ClaimResult) (k : Option Nat) (s : State) : (endClaim h r k s).freeUses = s.freeUses := by
  unfold endClaim; split <;> simp

/-! `claimNoisy` writes host, floor, register, sump, claims. -/

@[simp] theorem claimNoisy_pending (h : Nat) (s : State) : (claimNoisy h s).pending = s.pending := by
  unfold claimNoisy; split; · rfl
  · simp only; split <;> simp
@[simp] theorem claimNoisy_station (h : Nat) (s : State) : (claimNoisy h s).station = s.station := by
  unfold claimNoisy; split; · rfl
  · simp only; split <;> simp
@[simp] theorem claimNoisy_settings (h : Nat) (s : State) : (claimNoisy h s).settings = s.settings := by
  unfold claimNoisy; split; · rfl
  · simp only; split <;> simp
@[simp] theorem claimNoisy_peers (h : Nat) (s : State) : (claimNoisy h s).peers = s.peers := by
  unfold claimNoisy; split; · rfl
  · simp only; split <;> simp
@[simp] theorem claimNoisy_staged (h : Nat) (s : State) : (claimNoisy h s).staged = s.staged := by
  unfold claimNoisy; split; · rfl
  · simp only; split <;> simp
@[simp] theorem claimNoisy_active (h : Nat) (s : State) : (claimNoisy h s).active = s.active := by
  unfold claimNoisy; split; · rfl
  · simp only; split <;> simp
@[simp] theorem claimNoisy_charge (h : Nat) (s : State) : (claimNoisy h s).charge = s.charge := by
  unfold claimNoisy; split; · rfl
  · simp only; split <;> simp
@[simp] theorem claimNoisy_water (h : Nat) (s : State) : (claimNoisy h s).water = s.water := by
  unfold claimNoisy; split; · rfl
  · simp only; split <;> simp
@[simp] theorem claimNoisy_jobs (h : Nat) (s : State) : (claimNoisy h s).jobs = s.jobs := by
  unfold claimNoisy; split; · rfl
  · simp only; split <;> simp
@[simp] theorem claimNoisy_store (h : Nat) (s : State) : (claimNoisy h s).store = s.store := by
  unfold claimNoisy; split; · rfl
  · simp only; split <;> simp
@[simp] theorem claimNoisy_freeUses (h : Nat) (s : State) : (claimNoisy h s).freeUses = s.freeUses := by
  unfold claimNoisy; split; · rfl
  · simp only; split <;> simp

/-! `withdrawOwned` writes floor. -/

@[simp] theorem withdrawOwned_pending (h : Nat) (s : State) : (withdrawOwned h s).pending = s.pending := rfl
@[simp] theorem withdrawOwned_station (h : Nat) (s : State) : (withdrawOwned h s).station = s.station := rfl
@[simp] theorem withdrawOwned_settings (h : Nat) (s : State) : (withdrawOwned h s).settings = s.settings := rfl
@[simp] theorem withdrawOwned_host (h : Nat) (s : State) : (withdrawOwned h s).host = s.host := rfl
@[simp] theorem withdrawOwned_peers (h : Nat) (s : State) : (withdrawOwned h s).peers = s.peers := rfl
@[simp] theorem withdrawOwned_register (h : Nat) (s : State) : (withdrawOwned h s).register = s.register := rfl
@[simp] theorem withdrawOwned_claims (h : Nat) (s : State) : (withdrawOwned h s).claims = s.claims := rfl
@[simp] theorem withdrawOwned_staged (h : Nat) (s : State) : (withdrawOwned h s).staged = s.staged := rfl
@[simp] theorem withdrawOwned_active (h : Nat) (s : State) : (withdrawOwned h s).active = s.active := rfl
@[simp] theorem withdrawOwned_charge (h : Nat) (s : State) : (withdrawOwned h s).charge = s.charge := rfl
@[simp] theorem withdrawOwned_water (h : Nat) (s : State) : (withdrawOwned h s).water = s.water := rfl
@[simp] theorem withdrawOwned_sump (h : Nat) (s : State) : (withdrawOwned h s).sump = s.sump := rfl
@[simp] theorem withdrawOwned_jobs (h : Nat) (s : State) : (withdrawOwned h s).jobs = s.jobs := rfl
@[simp] theorem withdrawOwned_store (h : Nat) (s : State) : (withdrawOwned h s).store = s.store := rfl
@[simp] theorem withdrawOwned_freeUses (h : Nat) (s : State) : (withdrawOwned h s).freeUses = s.freeUses := rfl

/-! `yieldClaim` writes host, floor, register, sump, claims. -/

@[simp] theorem yieldClaim_pending (h k : Nat) (s : State) : (yieldClaim h k s).pending = s.pending := by
  simp [yieldClaim]
@[simp] theorem yieldClaim_station (h k : Nat) (s : State) : (yieldClaim h k s).station = s.station := by
  simp [yieldClaim]
@[simp] theorem yieldClaim_settings (h k : Nat) (s : State) : (yieldClaim h k s).settings = s.settings := by
  simp [yieldClaim]
@[simp] theorem yieldClaim_peers (h k : Nat) (s : State) : (yieldClaim h k s).peers = s.peers := by
  simp [yieldClaim]
@[simp] theorem yieldClaim_staged (h k : Nat) (s : State) : (yieldClaim h k s).staged = s.staged := by
  simp [yieldClaim]
@[simp] theorem yieldClaim_active (h k : Nat) (s : State) : (yieldClaim h k s).active = s.active := by
  simp [yieldClaim]
@[simp] theorem yieldClaim_charge (h k : Nat) (s : State) : (yieldClaim h k s).charge = s.charge := by
  simp [yieldClaim]
@[simp] theorem yieldClaim_water (h k : Nat) (s : State) : (yieldClaim h k s).water = s.water := by
  simp [yieldClaim]
@[simp] theorem yieldClaim_jobs (h k : Nat) (s : State) : (yieldClaim h k s).jobs = s.jobs := by
  simp [yieldClaim]
@[simp] theorem yieldClaim_store (h k : Nat) (s : State) : (yieldClaim h k s).store = s.store := by
  simp [yieldClaim]
@[simp] theorem yieldClaim_freeUses (h k : Nat) (s : State) : (yieldClaim h k s).freeUses = s.freeUses := by
  simp [yieldClaim]

/-! `releaseClaim` writes host, floor, register, claims. -/

@[simp] theorem releaseClaim_pending (k : Nat) (s : State) : (releaseClaim k s).pending = s.pending := by
  unfold releaseClaim; split; · rfl
  · split
    · simp only; split <;> simp
    · rfl
@[simp] theorem releaseClaim_station (k : Nat) (s : State) : (releaseClaim k s).station = s.station := by
  unfold releaseClaim; split; · rfl
  · split
    · simp only; split <;> simp
    · rfl
@[simp] theorem releaseClaim_settings (k : Nat) (s : State) : (releaseClaim k s).settings = s.settings := by
  unfold releaseClaim; split; · rfl
  · split
    · simp only; split <;> simp
    · rfl
@[simp] theorem releaseClaim_peers (k : Nat) (s : State) : (releaseClaim k s).peers = s.peers := by
  unfold releaseClaim; split; · rfl
  · split
    · simp only; split <;> simp
    · rfl
@[simp] theorem releaseClaim_staged (k : Nat) (s : State) : (releaseClaim k s).staged = s.staged := by
  unfold releaseClaim; split; · rfl
  · split
    · simp only; split <;> simp
    · rfl
@[simp] theorem releaseClaim_active (k : Nat) (s : State) : (releaseClaim k s).active = s.active := by
  unfold releaseClaim; split; · rfl
  · split
    · simp only; split <;> simp
    · rfl
@[simp] theorem releaseClaim_charge (k : Nat) (s : State) : (releaseClaim k s).charge = s.charge := by
  unfold releaseClaim; split; · rfl
  · split
    · simp only; split <;> simp
    · rfl
@[simp] theorem releaseClaim_water (k : Nat) (s : State) : (releaseClaim k s).water = s.water := by
  unfold releaseClaim; split; · rfl
  · split
    · simp only; split <;> simp
    · rfl
@[simp] theorem releaseClaim_sump (k : Nat) (s : State) : (releaseClaim k s).sump = s.sump := by
  unfold releaseClaim; split; · rfl
  · split
    · simp only; split <;> simp
    · rfl
@[simp] theorem releaseClaim_jobs (k : Nat) (s : State) : (releaseClaim k s).jobs = s.jobs := by
  unfold releaseClaim; split; · rfl
  · split
    · simp only; split <;> simp
    · rfl
@[simp] theorem releaseClaim_store (k : Nat) (s : State) : (releaseClaim k s).store = s.store := by
  unfold releaseClaim; split; · rfl
  · split
    · simp only; split <;> simp
    · rfl
@[simp] theorem releaseClaim_freeUses (k : Nat) (s : State) : (releaseClaim k s).freeUses = s.freeUses := by
  unfold releaseClaim; split; · rfl
  · split
    · simp only; split <;> simp
    · rfl

/-! `countConflict` writes claims. -/

@[simp] theorem countConflict_pending (s : State) : (countConflict s).pending = s.pending := rfl
@[simp] theorem countConflict_station (s : State) : (countConflict s).station = s.station := rfl
@[simp] theorem countConflict_settings (s : State) : (countConflict s).settings = s.settings := rfl
@[simp] theorem countConflict_host (s : State) : (countConflict s).host = s.host := rfl
@[simp] theorem countConflict_floor (s : State) : (countConflict s).floor = s.floor := rfl
@[simp] theorem countConflict_peers (s : State) : (countConflict s).peers = s.peers := rfl
@[simp] theorem countConflict_register (s : State) : (countConflict s).register = s.register := rfl
@[simp] theorem countConflict_staged (s : State) : (countConflict s).staged = s.staged := rfl
@[simp] theorem countConflict_active (s : State) : (countConflict s).active = s.active := rfl
@[simp] theorem countConflict_charge (s : State) : (countConflict s).charge = s.charge := rfl
@[simp] theorem countConflict_water (s : State) : (countConflict s).water = s.water := rfl
@[simp] theorem countConflict_sump (s : State) : (countConflict s).sump = s.sump := rfl
@[simp] theorem countConflict_jobs (s : State) : (countConflict s).jobs = s.jobs := rfl
@[simp] theorem countConflict_store (s : State) : (countConflict s).store = s.store := rfl
@[simp] theorem countConflict_freeUses (s : State) : (countConflict s).freeUses = s.freeUses := rfl

/-! `setVolume` writes sump, store. -/

@[simp] theorem setVolume_pending (v : Nat) (s : State) : (setVolume v s).pending = s.pending := by
  unfold setVolume; split <;> simp
@[simp] theorem setVolume_station (v : Nat) (s : State) : (setVolume v s).station = s.station := by
  unfold setVolume; split <;> simp
@[simp] theorem setVolume_settings (v : Nat) (s : State) : (setVolume v s).settings = s.settings := by
  unfold setVolume; split <;> simp
@[simp] theorem setVolume_host (v : Nat) (s : State) : (setVolume v s).host = s.host := by
  unfold setVolume; split <;> simp
@[simp] theorem setVolume_floor (v : Nat) (s : State) : (setVolume v s).floor = s.floor := by
  unfold setVolume; split <;> simp
@[simp] theorem setVolume_peers (v : Nat) (s : State) : (setVolume v s).peers = s.peers := by
  unfold setVolume; split <;> simp
@[simp] theorem setVolume_register (v : Nat) (s : State) : (setVolume v s).register = s.register := by
  unfold setVolume; split <;> simp
@[simp] theorem setVolume_claims (v : Nat) (s : State) : (setVolume v s).claims = s.claims := by
  unfold setVolume; split <;> simp
@[simp] theorem setVolume_staged (v : Nat) (s : State) : (setVolume v s).staged = s.staged := by
  unfold setVolume; split <;> simp
@[simp] theorem setVolume_active (v : Nat) (s : State) : (setVolume v s).active = s.active := by
  unfold setVolume; split <;> simp
@[simp] theorem setVolume_charge (v : Nat) (s : State) : (setVolume v s).charge = s.charge := by
  unfold setVolume; split <;> simp
@[simp] theorem setVolume_water (v : Nat) (s : State) : (setVolume v s).water = s.water := by
  unfold setVolume; split <;> simp
@[simp] theorem setVolume_jobs (v : Nat) (s : State) : (setVolume v s).jobs = s.jobs := by
  unfold setVolume; split <;> simp
@[simp] theorem setVolume_freeUses (v : Nat) (s : State) : (setVolume v s).freeUses = s.freeUses := by
  unfold setVolume; split <;> simp

/-! `addCause` writes host, active. -/

@[simp] theorem addCause_pending (c : Cause) (g : Nat) (k : OrderKind) (p : Point) (s : State) : (addCause c g k p s).pending = s.pending := by
  simp [addCause]
@[simp] theorem addCause_station (c : Cause) (g : Nat) (k : OrderKind) (p : Point) (s : State) : (addCause c g k p s).station = s.station := by
  simp [addCause]
@[simp] theorem addCause_settings (c : Cause) (g : Nat) (k : OrderKind) (p : Point) (s : State) : (addCause c g k p s).settings = s.settings := by
  simp [addCause]
@[simp] theorem addCause_floor (c : Cause) (g : Nat) (k : OrderKind) (p : Point) (s : State) : (addCause c g k p s).floor = s.floor := by
  simp [addCause]
@[simp] theorem addCause_peers (c : Cause) (g : Nat) (k : OrderKind) (p : Point) (s : State) : (addCause c g k p s).peers = s.peers := by
  simp [addCause]
@[simp] theorem addCause_register (c : Cause) (g : Nat) (k : OrderKind) (p : Point) (s : State) : (addCause c g k p s).register = s.register := by
  simp [addCause]
@[simp] theorem addCause_claims (c : Cause) (g : Nat) (k : OrderKind) (p : Point) (s : State) : (addCause c g k p s).claims = s.claims := by
  simp [addCause]
@[simp] theorem addCause_staged (c : Cause) (g : Nat) (k : OrderKind) (p : Point) (s : State) : (addCause c g k p s).staged = s.staged := by
  simp [addCause]
@[simp] theorem addCause_charge (c : Cause) (g : Nat) (k : OrderKind) (p : Point) (s : State) : (addCause c g k p s).charge = s.charge := by
  simp [addCause]
@[simp] theorem addCause_water (c : Cause) (g : Nat) (k : OrderKind) (p : Point) (s : State) : (addCause c g k p s).water = s.water := by
  simp [addCause]
@[simp] theorem addCause_sump (c : Cause) (g : Nat) (k : OrderKind) (p : Point) (s : State) : (addCause c g k p s).sump = s.sump := by
  simp [addCause]
@[simp] theorem addCause_jobs (c : Cause) (g : Nat) (k : OrderKind) (p : Point) (s : State) : (addCause c g k p s).jobs = s.jobs := by
  simp [addCause]
@[simp] theorem addCause_store (c : Cause) (g : Nat) (k : OrderKind) (p : Point) (s : State) : (addCause c g k p s).store = s.store := by
  simp [addCause]
@[simp] theorem addCause_freeUses (c : Cause) (g : Nat) (k : OrderKind) (p : Point) (s : State) : (addCause c g k p s).freeUses = s.freeUses := by
  simp [addCause]

/-! `updateFeed` writes host, active. -/

@[simp] theorem updateFeed_pending (o : Order) (s : State) : (updateFeed o s).pending = s.pending := by
  unfold updateFeed; split; · rfl
  · split <;> simp
@[simp] theorem updateFeed_station (o : Order) (s : State) : (updateFeed o s).station = s.station := by
  unfold updateFeed; split; · rfl
  · split <;> simp
@[simp] theorem updateFeed_settings (o : Order) (s : State) : (updateFeed o s).settings = s.settings := by
  unfold updateFeed; split; · rfl
  · split <;> simp
@[simp] theorem updateFeed_floor (o : Order) (s : State) : (updateFeed o s).floor = s.floor := by
  unfold updateFeed; split; · rfl
  · split <;> simp
@[simp] theorem updateFeed_peers (o : Order) (s : State) : (updateFeed o s).peers = s.peers := by
  unfold updateFeed; split; · rfl
  · split <;> simp
@[simp] theorem updateFeed_register (o : Order) (s : State) : (updateFeed o s).register = s.register := by
  unfold updateFeed; split; · rfl
  · split <;> simp
@[simp] theorem updateFeed_claims (o : Order) (s : State) : (updateFeed o s).claims = s.claims := by
  unfold updateFeed; split; · rfl
  · split <;> simp
@[simp] theorem updateFeed_staged (o : Order) (s : State) : (updateFeed o s).staged = s.staged := by
  unfold updateFeed; split; · rfl
  · split <;> simp
@[simp] theorem updateFeed_charge (o : Order) (s : State) : (updateFeed o s).charge = s.charge := by
  unfold updateFeed; split; · rfl
  · split <;> simp
@[simp] theorem updateFeed_water (o : Order) (s : State) : (updateFeed o s).water = s.water := by
  unfold updateFeed; split; · rfl
  · split <;> simp
@[simp] theorem updateFeed_sump (o : Order) (s : State) : (updateFeed o s).sump = s.sump := by
  unfold updateFeed; split; · rfl
  · split <;> simp
@[simp] theorem updateFeed_jobs (o : Order) (s : State) : (updateFeed o s).jobs = s.jobs := by
  unfold updateFeed; split; · rfl
  · split <;> simp
@[simp] theorem updateFeed_store (o : Order) (s : State) : (updateFeed o s).store = s.store := by
  unfold updateFeed; split; · rfl
  · split <;> simp
@[simp] theorem updateFeed_freeUses (o : Order) (s : State) : (updateFeed o s).freeUses = s.freeUses := by
  unfold updateFeed; split; · rfl
  · split <;> simp

/-! `holdOrder` writes host, active. -/

@[simp] theorem holdOrder_pending (o : Order) (s : State) : (holdOrder o s).pending = s.pending := by
  simp [holdOrder]
@[simp] theorem holdOrder_station (o : Order) (s : State) : (holdOrder o s).station = s.station := by
  simp [holdOrder]
@[simp] theorem holdOrder_settings (o : Order) (s : State) : (holdOrder o s).settings = s.settings := by
  simp [holdOrder]
@[simp] theorem holdOrder_floor (o : Order) (s : State) : (holdOrder o s).floor = s.floor := by
  simp [holdOrder]
@[simp] theorem holdOrder_peers (o : Order) (s : State) : (holdOrder o s).peers = s.peers := by
  simp [holdOrder]
@[simp] theorem holdOrder_register (o : Order) (s : State) : (holdOrder o s).register = s.register := by
  simp [holdOrder]
@[simp] theorem holdOrder_claims (o : Order) (s : State) : (holdOrder o s).claims = s.claims := by
  simp [holdOrder]
@[simp] theorem holdOrder_staged (o : Order) (s : State) : (holdOrder o s).staged = s.staged := by
  simp [holdOrder]
@[simp] theorem holdOrder_charge (o : Order) (s : State) : (holdOrder o s).charge = s.charge := by
  simp [holdOrder]
@[simp] theorem holdOrder_water (o : Order) (s : State) : (holdOrder o s).water = s.water := by
  simp [holdOrder]
@[simp] theorem holdOrder_sump (o : Order) (s : State) : (holdOrder o s).sump = s.sump := by
  simp [holdOrder]
@[simp] theorem holdOrder_jobs (o : Order) (s : State) : (holdOrder o s).jobs = s.jobs := by
  simp [holdOrder]
@[simp] theorem holdOrder_store (o : Order) (s : State) : (holdOrder o s).store = s.store := by
  simp [holdOrder]
@[simp] theorem holdOrder_freeUses (o : Order) (s : State) : (holdOrder o s).freeUses = s.freeUses := by
  simp [holdOrder]

/-! `planOnWater` writes host, active. -/

@[simp] theorem planOnWater_pending (s : State) : (planOnWater s).pending = s.pending := by
  unfold planOnWater; split; · rfl
  · split
    · split <;> simp
    · rfl
@[simp] theorem planOnWater_station (s : State) : (planOnWater s).station = s.station := by
  unfold planOnWater; split; · rfl
  · split
    · split <;> simp
    · rfl
@[simp] theorem planOnWater_settings (s : State) : (planOnWater s).settings = s.settings := by
  unfold planOnWater; split; · rfl
  · split
    · split <;> simp
    · rfl
@[simp] theorem planOnWater_floor (s : State) : (planOnWater s).floor = s.floor := by
  unfold planOnWater; split; · rfl
  · split
    · split <;> simp
    · rfl
@[simp] theorem planOnWater_peers (s : State) : (planOnWater s).peers = s.peers := by
  unfold planOnWater; split; · rfl
  · split
    · split <;> simp
    · rfl
@[simp] theorem planOnWater_register (s : State) : (planOnWater s).register = s.register := by
  unfold planOnWater; split; · rfl
  · split
    · split <;> simp
    · rfl
@[simp] theorem planOnWater_claims (s : State) : (planOnWater s).claims = s.claims := by
  unfold planOnWater; split; · rfl
  · split
    · split <;> simp
    · rfl
@[simp] theorem planOnWater_staged (s : State) : (planOnWater s).staged = s.staged := by
  unfold planOnWater; split; · rfl
  · split
    · split <;> simp
    · rfl
@[simp] theorem planOnWater_charge (s : State) : (planOnWater s).charge = s.charge := by
  unfold planOnWater; split; · rfl
  · split
    · split <;> simp
    · rfl
@[simp] theorem planOnWater_water (s : State) : (planOnWater s).water = s.water := by
  unfold planOnWater; split; · rfl
  · split
    · split <;> simp
    · rfl
@[simp] theorem planOnWater_sump (s : State) : (planOnWater s).sump = s.sump := by
  unfold planOnWater; split; · rfl
  · split
    · split <;> simp
    · rfl
@[simp] theorem planOnWater_jobs (s : State) : (planOnWater s).jobs = s.jobs := by
  unfold planOnWater; split; · rfl
  · split
    · split <;> simp
    · rfl
@[simp] theorem planOnWater_store (s : State) : (planOnWater s).store = s.store := by
  unfold planOnWater; split; · rfl
  · split
    · split <;> simp
    · rfl
@[simp] theorem planOnWater_freeUses (s : State) : (planOnWater s).freeUses = s.freeUses := by
  unfold planOnWater; split; · rfl
  · split
    · split <;> simp
    · rfl

/-! `judgeDwell` writes water. -/

@[simp] theorem judgeDwell_pending (s : State) : (judgeDwell s).pending = s.pending := rfl
@[simp] theorem judgeDwell_station (s : State) : (judgeDwell s).station = s.station := rfl
@[simp] theorem judgeDwell_settings (s : State) : (judgeDwell s).settings = s.settings := rfl
@[simp] theorem judgeDwell_host (s : State) : (judgeDwell s).host = s.host := rfl
@[simp] theorem judgeDwell_floor (s : State) : (judgeDwell s).floor = s.floor := rfl
@[simp] theorem judgeDwell_peers (s : State) : (judgeDwell s).peers = s.peers := rfl
@[simp] theorem judgeDwell_register (s : State) : (judgeDwell s).register = s.register := rfl
@[simp] theorem judgeDwell_claims (s : State) : (judgeDwell s).claims = s.claims := rfl
@[simp] theorem judgeDwell_staged (s : State) : (judgeDwell s).staged = s.staged := rfl
@[simp] theorem judgeDwell_active (s : State) : (judgeDwell s).active = s.active := rfl
@[simp] theorem judgeDwell_charge (s : State) : (judgeDwell s).charge = s.charge := rfl
@[simp] theorem judgeDwell_sump (s : State) : (judgeDwell s).sump = s.sump := rfl
@[simp] theorem judgeDwell_jobs (s : State) : (judgeDwell s).jobs = s.jobs := rfl
@[simp] theorem judgeDwell_store (s : State) : (judgeDwell s).store = s.store := rfl
@[simp] theorem judgeDwell_freeUses (s : State) : (judgeDwell s).freeUses = s.freeUses := rfl

/-! `recomputeWater` writes host, active, water. -/

@[simp] theorem recomputeWater_pending (s : State) : (recomputeWater s).pending = s.pending := by
  unfold recomputeWater; simp only; split <;> split <;> simp
@[simp] theorem recomputeWater_station (s : State) : (recomputeWater s).station = s.station := by
  unfold recomputeWater; simp only; split <;> split <;> simp
@[simp] theorem recomputeWater_settings (s : State) : (recomputeWater s).settings = s.settings := by
  unfold recomputeWater; simp only; split <;> split <;> simp
@[simp] theorem recomputeWater_floor (s : State) : (recomputeWater s).floor = s.floor := by
  unfold recomputeWater; simp only; split <;> split <;> simp
@[simp] theorem recomputeWater_peers (s : State) : (recomputeWater s).peers = s.peers := by
  unfold recomputeWater; simp only; split <;> split <;> simp
@[simp] theorem recomputeWater_register (s : State) : (recomputeWater s).register = s.register := by
  unfold recomputeWater; simp only; split <;> split <;> simp
@[simp] theorem recomputeWater_claims (s : State) : (recomputeWater s).claims = s.claims := by
  unfold recomputeWater; simp only; split <;> split <;> simp
@[simp] theorem recomputeWater_staged (s : State) : (recomputeWater s).staged = s.staged := by
  unfold recomputeWater; simp only; split <;> split <;> simp
@[simp] theorem recomputeWater_charge (s : State) : (recomputeWater s).charge = s.charge := by
  unfold recomputeWater; simp only; split <;> split <;> simp
@[simp] theorem recomputeWater_sump (s : State) : (recomputeWater s).sump = s.sump := by
  unfold recomputeWater; simp only; split <;> split <;> simp
@[simp] theorem recomputeWater_jobs (s : State) : (recomputeWater s).jobs = s.jobs := by
  unfold recomputeWater; simp only; split <;> split <;> simp
@[simp] theorem recomputeWater_store (s : State) : (recomputeWater s).store = s.store := by
  unfold recomputeWater; simp only; split <;> split <;> simp
@[simp] theorem recomputeWater_freeUses (s : State) : (recomputeWater s).freeUses = s.freeUses := by
  unfold recomputeWater; simp only; split <;> split <;> simp

/-! `sendDemand` writes host, floor, claims, water. -/

@[simp] theorem sendDemand_pending (s : State) : (sendDemand s).pending = s.pending := by
  unfold sendDemand; split; · simp only; split <;> simp
  · rfl
@[simp] theorem sendDemand_station (s : State) : (sendDemand s).station = s.station := by
  unfold sendDemand; split; · simp only; split <;> simp
  · rfl
@[simp] theorem sendDemand_settings (s : State) : (sendDemand s).settings = s.settings := by
  unfold sendDemand; split; · simp only; split <;> simp
  · rfl
@[simp] theorem sendDemand_peers (s : State) : (sendDemand s).peers = s.peers := by
  unfold sendDemand; split; · simp only; split <;> simp
  · rfl
@[simp] theorem sendDemand_register (s : State) : (sendDemand s).register = s.register := by
  unfold sendDemand; split; · simp only; split <;> simp
  · rfl
@[simp] theorem sendDemand_staged (s : State) : (sendDemand s).staged = s.staged := by
  unfold sendDemand; split; · simp only; split <;> simp
  · rfl
@[simp] theorem sendDemand_active (s : State) : (sendDemand s).active = s.active := by
  unfold sendDemand; split; · simp only; split <;> simp
  · rfl
@[simp] theorem sendDemand_charge (s : State) : (sendDemand s).charge = s.charge := by
  unfold sendDemand; split; · simp only; split <;> simp
  · rfl
@[simp] theorem sendDemand_sump (s : State) : (sendDemand s).sump = s.sump := by
  unfold sendDemand; split; · simp only; split <;> simp
  · rfl
@[simp] theorem sendDemand_jobs (s : State) : (sendDemand s).jobs = s.jobs := by
  unfold sendDemand; split; · simp only; split <;> simp
  · rfl
@[simp] theorem sendDemand_store (s : State) : (sendDemand s).store = s.store := by
  unfold sendDemand; split; · simp only; split <;> simp
  · rfl
@[simp] theorem sendDemand_freeUses (s : State) : (sendDemand s).freeUses = s.freeUses := by
  unfold sendDemand; split; · simp only; split <;> simp
  · rfl

/-! `tellWater` writes host, floor, claims, active, water. -/

@[simp] theorem tellWater_pending (s : State) : (tellWater s).pending = s.pending := by
  unfold tellWater; simp only; split <;> simp
@[simp] theorem tellWater_station (s : State) : (tellWater s).station = s.station := by
  unfold tellWater; simp only; split <;> simp
@[simp] theorem tellWater_settings (s : State) : (tellWater s).settings = s.settings := by
  unfold tellWater; simp only; split <;> simp
@[simp] theorem tellWater_peers (s : State) : (tellWater s).peers = s.peers := by
  unfold tellWater; simp only; split <;> simp
@[simp] theorem tellWater_register (s : State) : (tellWater s).register = s.register := by
  unfold tellWater; simp only; split <;> simp
@[simp] theorem tellWater_staged (s : State) : (tellWater s).staged = s.staged := by
  unfold tellWater; simp only; split <;> simp
@[simp] theorem tellWater_charge (s : State) : (tellWater s).charge = s.charge := by
  unfold tellWater; simp only; split <;> simp
@[simp] theorem tellWater_sump (s : State) : (tellWater s).sump = s.sump := by
  unfold tellWater; simp only; split <;> simp
@[simp] theorem tellWater_jobs (s : State) : (tellWater s).jobs = s.jobs := by
  unfold tellWater; simp only; split <;> simp
@[simp] theorem tellWater_store (s : State) : (tellWater s).store = s.store := by
  unfold tellWater; simp only; split <;> simp
@[simp] theorem tellWater_freeUses (s : State) : (tellWater s).freeUses = s.freeUses := by
  unfold tellWater; simp only; split <;> simp

/-! `countsToIdle` writes water. -/

@[simp] theorem countsToIdle_pending (s : State) : (countsToIdle s).pending = s.pending := rfl
@[simp] theorem countsToIdle_station (s : State) : (countsToIdle s).station = s.station := rfl
@[simp] theorem countsToIdle_settings (s : State) : (countsToIdle s).settings = s.settings := rfl
@[simp] theorem countsToIdle_host (s : State) : (countsToIdle s).host = s.host := rfl
@[simp] theorem countsToIdle_floor (s : State) : (countsToIdle s).floor = s.floor := rfl
@[simp] theorem countsToIdle_peers (s : State) : (countsToIdle s).peers = s.peers := rfl
@[simp] theorem countsToIdle_register (s : State) : (countsToIdle s).register = s.register := rfl
@[simp] theorem countsToIdle_claims (s : State) : (countsToIdle s).claims = s.claims := rfl
@[simp] theorem countsToIdle_staged (s : State) : (countsToIdle s).staged = s.staged := rfl
@[simp] theorem countsToIdle_active (s : State) : (countsToIdle s).active = s.active := rfl
@[simp] theorem countsToIdle_charge (s : State) : (countsToIdle s).charge = s.charge := rfl
@[simp] theorem countsToIdle_sump (s : State) : (countsToIdle s).sump = s.sump := rfl
@[simp] theorem countsToIdle_jobs (s : State) : (countsToIdle s).jobs = s.jobs := rfl
@[simp] theorem countsToIdle_store (s : State) : (countsToIdle s).store = s.store := rfl
@[simp] theorem countsToIdle_freeUses (s : State) : (countsToIdle s).freeUses = s.freeUses := rfl

/-! `setActiveState` writes host, floor, claims, active, water. -/

@[simp] theorem setActiveState_pending (x : ActiveState) (s : State) : (setActiveState x s).pending = s.pending := by
  simp [setActiveState]
@[simp] theorem setActiveState_station (x : ActiveState) (s : State) : (setActiveState x s).station = s.station := by
  simp [setActiveState]
@[simp] theorem setActiveState_settings (x : ActiveState) (s : State) : (setActiveState x s).settings = s.settings := by
  simp [setActiveState]
@[simp] theorem setActiveState_peers (x : ActiveState) (s : State) : (setActiveState x s).peers = s.peers := by
  simp [setActiveState]
@[simp] theorem setActiveState_register (x : ActiveState) (s : State) : (setActiveState x s).register = s.register := by
  simp [setActiveState]
@[simp] theorem setActiveState_staged (x : ActiveState) (s : State) : (setActiveState x s).staged = s.staged := by
  simp [setActiveState]
@[simp] theorem setActiveState_charge (x : ActiveState) (s : State) : (setActiveState x s).charge = s.charge := by
  simp [setActiveState]
@[simp] theorem setActiveState_sump (x : ActiveState) (s : State) : (setActiveState x s).sump = s.sump := by
  simp [setActiveState]
@[simp] theorem setActiveState_jobs (x : ActiveState) (s : State) : (setActiveState x s).jobs = s.jobs := by
  simp [setActiveState]
@[simp] theorem setActiveState_store (x : ActiveState) (s : State) : (setActiveState x s).store = s.store := by
  simp [setActiveState]
@[simp] theorem setActiveState_freeUses (x : ActiveState) (s : State) : (setActiveState x s).freeUses = s.freeUses := by
  simp [setActiveState]

/-! `issueOrder` writes host, active. -/

@[simp] theorem issueOrder_pending (s : State) : (issueOrder s).pending = s.pending := by
  simp [issueOrder]
@[simp] theorem issueOrder_station (s : State) : (issueOrder s).station = s.station := by
  simp [issueOrder]
@[simp] theorem issueOrder_settings (s : State) : (issueOrder s).settings = s.settings := by
  simp [issueOrder]
@[simp] theorem issueOrder_floor (s : State) : (issueOrder s).floor = s.floor := by
  simp [issueOrder]
@[simp] theorem issueOrder_peers (s : State) : (issueOrder s).peers = s.peers := by
  simp [issueOrder]
@[simp] theorem issueOrder_register (s : State) : (issueOrder s).register = s.register := by
  simp [issueOrder]
@[simp] theorem issueOrder_claims (s : State) : (issueOrder s).claims = s.claims := by
  simp [issueOrder]
@[simp] theorem issueOrder_staged (s : State) : (issueOrder s).staged = s.staged := by
  simp [issueOrder]
@[simp] theorem issueOrder_charge (s : State) : (issueOrder s).charge = s.charge := by
  simp [issueOrder]
@[simp] theorem issueOrder_water (s : State) : (issueOrder s).water = s.water := by
  simp [issueOrder]
@[simp] theorem issueOrder_sump (s : State) : (issueOrder s).sump = s.sump := by
  simp [issueOrder]
@[simp] theorem issueOrder_jobs (s : State) : (issueOrder s).jobs = s.jobs := by
  simp [issueOrder]
@[simp] theorem issueOrder_store (s : State) : (issueOrder s).store = s.store := by
  simp [issueOrder]
@[simp] theorem issueOrder_freeUses (s : State) : (issueOrder s).freeUses = s.freeUses := by
  simp [issueOrder]

/-! `pauseAtIssue` writes host, floor, claims, active, water. -/

@[simp] theorem pauseAtIssue_pending (c : Cause) (s : State) : (pauseAtIssue c s).pending = s.pending := by
  simp [pauseAtIssue]
@[simp] theorem pauseAtIssue_station (c : Cause) (s : State) : (pauseAtIssue c s).station = s.station := by
  simp [pauseAtIssue]
@[simp] theorem pauseAtIssue_settings (c : Cause) (s : State) : (pauseAtIssue c s).settings = s.settings := by
  simp [pauseAtIssue]
@[simp] theorem pauseAtIssue_peers (c : Cause) (s : State) : (pauseAtIssue c s).peers = s.peers := by
  simp [pauseAtIssue]
@[simp] theorem pauseAtIssue_register (c : Cause) (s : State) : (pauseAtIssue c s).register = s.register := by
  simp [pauseAtIssue]
@[simp] theorem pauseAtIssue_staged (c : Cause) (s : State) : (pauseAtIssue c s).staged = s.staged := by
  simp [pauseAtIssue]
@[simp] theorem pauseAtIssue_charge (c : Cause) (s : State) : (pauseAtIssue c s).charge = s.charge := by
  simp [pauseAtIssue]
@[simp] theorem pauseAtIssue_sump (c : Cause) (s : State) : (pauseAtIssue c s).sump = s.sump := by
  simp [pauseAtIssue]
@[simp] theorem pauseAtIssue_jobs (c : Cause) (s : State) : (pauseAtIssue c s).jobs = s.jobs := by
  simp [pauseAtIssue]
@[simp] theorem pauseAtIssue_store (c : Cause) (s : State) : (pauseAtIssue c s).store = s.store := by
  simp [pauseAtIssue]
@[simp] theorem pauseAtIssue_freeUses (c : Cause) (s : State) : (pauseAtIssue c s).freeUses = s.freeUses := by
  simp [pauseAtIssue]

/-! `issuePlan` writes host, floor, claims, active, water. -/

@[simp] theorem issuePlan_pending (s : State) : (issuePlan s).pending = s.pending := by
  unfold issuePlan; split; · simp
  · split <;> simp
@[simp] theorem issuePlan_station (s : State) : (issuePlan s).station = s.station := by
  unfold issuePlan; split; · simp
  · split <;> simp
@[simp] theorem issuePlan_settings (s : State) : (issuePlan s).settings = s.settings := by
  unfold issuePlan; split; · simp
  · split <;> simp
@[simp] theorem issuePlan_peers (s : State) : (issuePlan s).peers = s.peers := by
  unfold issuePlan; split; · simp
  · split <;> simp
@[simp] theorem issuePlan_register (s : State) : (issuePlan s).register = s.register := by
  unfold issuePlan; split; · simp
  · split <;> simp
@[simp] theorem issuePlan_staged (s : State) : (issuePlan s).staged = s.staged := by
  unfold issuePlan; split; · simp
  · split <;> simp
@[simp] theorem issuePlan_charge (s : State) : (issuePlan s).charge = s.charge := by
  unfold issuePlan; split; · simp
  · split <;> simp
@[simp] theorem issuePlan_sump (s : State) : (issuePlan s).sump = s.sump := by
  unfold issuePlan; split; · simp
  · split <;> simp
@[simp] theorem issuePlan_jobs (s : State) : (issuePlan s).jobs = s.jobs := by
  unfold issuePlan; split; · simp
  · split <;> simp
@[simp] theorem issuePlan_store (s : State) : (issuePlan s).store = s.store := by
  unfold issuePlan; split; · simp
  · split <;> simp
@[simp] theorem issuePlan_freeUses (s : State) : (issuePlan s).freeUses = s.freeUses := by
  unfold issuePlan; split; · simp
  · split <;> simp

/-! `resumePlan` writes host, floor, claims, active, water. -/

@[simp] theorem resumePlan_pending (s : State) : (resumePlan s).pending = s.pending := by
  simp [resumePlan]
@[simp] theorem resumePlan_station (s : State) : (resumePlan s).station = s.station := by
  simp [resumePlan]
@[simp] theorem resumePlan_settings (s : State) : (resumePlan s).settings = s.settings := by
  simp [resumePlan]
@[simp] theorem resumePlan_peers (s : State) : (resumePlan s).peers = s.peers := by
  simp [resumePlan]
@[simp] theorem resumePlan_register (s : State) : (resumePlan s).register = s.register := by
  simp [resumePlan]
@[simp] theorem resumePlan_staged (s : State) : (resumePlan s).staged = s.staged := by
  simp [resumePlan]
@[simp] theorem resumePlan_charge (s : State) : (resumePlan s).charge = s.charge := by
  simp [resumePlan]
@[simp] theorem resumePlan_sump (s : State) : (resumePlan s).sump = s.sump := by
  simp [resumePlan]
@[simp] theorem resumePlan_jobs (s : State) : (resumePlan s).jobs = s.jobs := by
  simp [resumePlan]
@[simp] theorem resumePlan_store (s : State) : (resumePlan s).store = s.store := by
  simp [resumePlan]
@[simp] theorem resumePlan_freeUses (s : State) : (resumePlan s).freeUses = s.freeUses := by
  simp [resumePlan]

/-! `setPending` writes host, floor, claims, active, water. -/

@[simp] theorem setPending_pending (p : Pending) (s : State) : (setPending p s).pending = s.pending := by
  unfold setPending; simp only; split <;> simp
@[simp] theorem setPending_station (p : Pending) (s : State) : (setPending p s).station = s.station := by
  unfold setPending; simp only; split <;> simp
@[simp] theorem setPending_settings (p : Pending) (s : State) : (setPending p s).settings = s.settings := by
  unfold setPending; simp only; split <;> simp
@[simp] theorem setPending_peers (p : Pending) (s : State) : (setPending p s).peers = s.peers := by
  unfold setPending; simp only; split <;> simp
@[simp] theorem setPending_register (p : Pending) (s : State) : (setPending p s).register = s.register := by
  unfold setPending; simp only; split <;> simp
@[simp] theorem setPending_staged (p : Pending) (s : State) : (setPending p s).staged = s.staged := by
  unfold setPending; simp only; split <;> simp
@[simp] theorem setPending_charge (p : Pending) (s : State) : (setPending p s).charge = s.charge := by
  unfold setPending; simp only; split <;> simp
@[simp] theorem setPending_sump (p : Pending) (s : State) : (setPending p s).sump = s.sump := by
  unfold setPending; simp only; split <;> simp
@[simp] theorem setPending_jobs (p : Pending) (s : State) : (setPending p s).jobs = s.jobs := by
  unfold setPending; simp only; split <;> simp
@[simp] theorem setPending_store (p : Pending) (s : State) : (setPending p s).store = s.store := by
  unfold setPending; simp only; split <;> simp
@[simp] theorem setPending_freeUses (p : Pending) (s : State) : (setPending p s).freeUses = s.freeUses := by
  unfold setPending; simp only; split <;> simp

/-! `stopOrder` writes host, active. -/

@[simp] theorem stopOrder_pending (o : Order) (s : State) : (stopOrder o s).pending = s.pending := by
  simp [stopOrder]
@[simp] theorem stopOrder_station (o : Order) (s : State) : (stopOrder o s).station = s.station := by
  simp [stopOrder]
@[simp] theorem stopOrder_settings (o : Order) (s : State) : (stopOrder o s).settings = s.settings := by
  simp [stopOrder]
@[simp] theorem stopOrder_floor (o : Order) (s : State) : (stopOrder o s).floor = s.floor := by
  simp [stopOrder]
@[simp] theorem stopOrder_peers (o : Order) (s : State) : (stopOrder o s).peers = s.peers := by
  simp [stopOrder]
@[simp] theorem stopOrder_register (o : Order) (s : State) : (stopOrder o s).register = s.register := by
  simp [stopOrder]
@[simp] theorem stopOrder_claims (o : Order) (s : State) : (stopOrder o s).claims = s.claims := by
  simp [stopOrder]
@[simp] theorem stopOrder_staged (o : Order) (s : State) : (stopOrder o s).staged = s.staged := by
  simp [stopOrder]
@[simp] theorem stopOrder_charge (o : Order) (s : State) : (stopOrder o s).charge = s.charge := by
  simp [stopOrder]
@[simp] theorem stopOrder_water (o : Order) (s : State) : (stopOrder o s).water = s.water := by
  simp [stopOrder]
@[simp] theorem stopOrder_sump (o : Order) (s : State) : (stopOrder o s).sump = s.sump := by
  simp [stopOrder]
@[simp] theorem stopOrder_jobs (o : Order) (s : State) : (stopOrder o s).jobs = s.jobs := by
  simp [stopOrder]
@[simp] theorem stopOrder_store (o : Order) (s : State) : (stopOrder o s).store = s.store := by
  simp [stopOrder]
@[simp] theorem stopOrder_freeUses (o : Order) (s : State) : (stopOrder o s).freeUses = s.freeUses := by
  simp [stopOrder]

/-! `stopRunning` writes host, floor, claims, active, water. -/

@[simp] theorem stopRunning_pending (o : Order) (c : Cause) (s : State) : (stopRunning o c s).pending = s.pending := by
  simp [stopRunning]
@[simp] theorem stopRunning_station (o : Order) (c : Cause) (s : State) : (stopRunning o c s).station = s.station := by
  simp [stopRunning]
@[simp] theorem stopRunning_settings (o : Order) (c : Cause) (s : State) : (stopRunning o c s).settings = s.settings := by
  simp [stopRunning]
@[simp] theorem stopRunning_peers (o : Order) (c : Cause) (s : State) : (stopRunning o c s).peers = s.peers := by
  simp [stopRunning]
@[simp] theorem stopRunning_register (o : Order) (c : Cause) (s : State) : (stopRunning o c s).register = s.register := by
  simp [stopRunning]
@[simp] theorem stopRunning_staged (o : Order) (c : Cause) (s : State) : (stopRunning o c s).staged = s.staged := by
  simp [stopRunning]
@[simp] theorem stopRunning_charge (o : Order) (c : Cause) (s : State) : (stopRunning o c s).charge = s.charge := by
  simp [stopRunning]
@[simp] theorem stopRunning_sump (o : Order) (c : Cause) (s : State) : (stopRunning o c s).sump = s.sump := by
  simp [stopRunning]
@[simp] theorem stopRunning_jobs (o : Order) (c : Cause) (s : State) : (stopRunning o c s).jobs = s.jobs := by
  simp [stopRunning]
@[simp] theorem stopRunning_store (o : Order) (c : Cause) (s : State) : (stopRunning o c s).store = s.store := by
  simp [stopRunning]
@[simp] theorem stopRunning_freeUses (o : Order) (c : Cause) (s : State) : (stopRunning o c s).freeUses = s.freeUses := by
  simp [stopRunning]

/-! `endOrder` writes active. -/

@[simp] theorem endOrder_pending (s : State) : (endOrder s).pending = s.pending := rfl
@[simp] theorem endOrder_station (s : State) : (endOrder s).station = s.station := rfl
@[simp] theorem endOrder_settings (s : State) : (endOrder s).settings = s.settings := rfl
@[simp] theorem endOrder_host (s : State) : (endOrder s).host = s.host := rfl
@[simp] theorem endOrder_floor (s : State) : (endOrder s).floor = s.floor := rfl
@[simp] theorem endOrder_peers (s : State) : (endOrder s).peers = s.peers := rfl
@[simp] theorem endOrder_register (s : State) : (endOrder s).register = s.register := rfl
@[simp] theorem endOrder_claims (s : State) : (endOrder s).claims = s.claims := rfl
@[simp] theorem endOrder_staged (s : State) : (endOrder s).staged = s.staged := rfl
@[simp] theorem endOrder_charge (s : State) : (endOrder s).charge = s.charge := rfl
@[simp] theorem endOrder_water (s : State) : (endOrder s).water = s.water := rfl
@[simp] theorem endOrder_sump (s : State) : (endOrder s).sump = s.sump := rfl
@[simp] theorem endOrder_jobs (s : State) : (endOrder s).jobs = s.jobs := rfl
@[simp] theorem endOrder_store (s : State) : (endOrder s).store = s.store := rfl
@[simp] theorem endOrder_freeUses (s : State) : (endOrder s).freeUses = s.freeUses := rfl

/-! `dropOrder` writes host, active, water. -/

@[simp] theorem dropOrder_pending (o : Order) (s : State) : (dropOrder o s).pending = s.pending := by
  simp [dropOrder]
@[simp] theorem dropOrder_station (o : Order) (s : State) : (dropOrder o s).station = s.station := by
  simp [dropOrder]
@[simp] theorem dropOrder_settings (o : Order) (s : State) : (dropOrder o s).settings = s.settings := by
  simp [dropOrder]
@[simp] theorem dropOrder_floor (o : Order) (s : State) : (dropOrder o s).floor = s.floor := by
  simp [dropOrder]
@[simp] theorem dropOrder_peers (o : Order) (s : State) : (dropOrder o s).peers = s.peers := by
  simp [dropOrder]
@[simp] theorem dropOrder_register (o : Order) (s : State) : (dropOrder o s).register = s.register := by
  simp [dropOrder]
@[simp] theorem dropOrder_claims (o : Order) (s : State) : (dropOrder o s).claims = s.claims := by
  simp [dropOrder]
@[simp] theorem dropOrder_staged (o : Order) (s : State) : (dropOrder o s).staged = s.staged := by
  simp [dropOrder]
@[simp] theorem dropOrder_charge (o : Order) (s : State) : (dropOrder o s).charge = s.charge := by
  simp [dropOrder]
@[simp] theorem dropOrder_sump (o : Order) (s : State) : (dropOrder o s).sump = s.sump := by
  simp [dropOrder]
@[simp] theorem dropOrder_jobs (o : Order) (s : State) : (dropOrder o s).jobs = s.jobs := by
  simp [dropOrder]
@[simp] theorem dropOrder_store (o : Order) (s : State) : (dropOrder o s).store = s.store := by
  simp [dropOrder]
@[simp] theorem dropOrder_freeUses (o : Order) (s : State) : (dropOrder o s).freeUses = s.freeUses := by
  simp [dropOrder]

/-! `emptyActive` writes active. -/

@[simp] theorem emptyActive_pending (s : State) : (emptyActive s).pending = s.pending := rfl
@[simp] theorem emptyActive_station (s : State) : (emptyActive s).station = s.station := rfl
@[simp] theorem emptyActive_settings (s : State) : (emptyActive s).settings = s.settings := rfl
@[simp] theorem emptyActive_host (s : State) : (emptyActive s).host = s.host := rfl
@[simp] theorem emptyActive_floor (s : State) : (emptyActive s).floor = s.floor := rfl
@[simp] theorem emptyActive_peers (s : State) : (emptyActive s).peers = s.peers := rfl
@[simp] theorem emptyActive_register (s : State) : (emptyActive s).register = s.register := rfl
@[simp] theorem emptyActive_claims (s : State) : (emptyActive s).claims = s.claims := rfl
@[simp] theorem emptyActive_staged (s : State) : (emptyActive s).staged = s.staged := rfl
@[simp] theorem emptyActive_charge (s : State) : (emptyActive s).charge = s.charge := rfl
@[simp] theorem emptyActive_water (s : State) : (emptyActive s).water = s.water := rfl
@[simp] theorem emptyActive_sump (s : State) : (emptyActive s).sump = s.sump := rfl
@[simp] theorem emptyActive_jobs (s : State) : (emptyActive s).jobs = s.jobs := rfl
@[simp] theorem emptyActive_store (s : State) : (emptyActive s).store = s.store := rfl
@[simp] theorem emptyActive_freeUses (s : State) : (emptyActive s).freeUses = s.freeUses := rfl

/-! `takePulses` writes charge, water. -/

@[simp] theorem takePulses_pending (s : State) : (takePulses s).pending = s.pending := rfl
@[simp] theorem takePulses_station (s : State) : (takePulses s).station = s.station := rfl
@[simp] theorem takePulses_settings (s : State) : (takePulses s).settings = s.settings := rfl
@[simp] theorem takePulses_host (s : State) : (takePulses s).host = s.host := rfl
@[simp] theorem takePulses_floor (s : State) : (takePulses s).floor = s.floor := rfl
@[simp] theorem takePulses_peers (s : State) : (takePulses s).peers = s.peers := rfl
@[simp] theorem takePulses_register (s : State) : (takePulses s).register = s.register := rfl
@[simp] theorem takePulses_claims (s : State) : (takePulses s).claims = s.claims := rfl
@[simp] theorem takePulses_staged (s : State) : (takePulses s).staged = s.staged := rfl
@[simp] theorem takePulses_active (s : State) : (takePulses s).active = s.active := rfl
@[simp] theorem takePulses_sump (s : State) : (takePulses s).sump = s.sump := rfl
@[simp] theorem takePulses_jobs (s : State) : (takePulses s).jobs = s.jobs := rfl
@[simp] theorem takePulses_store (s : State) : (takePulses s).store = s.store := rfl
@[simp] theorem takePulses_freeUses (s : State) : (takePulses s).freeUses = s.freeUses := rfl

/-! `advanceSegment` writes active. -/

@[simp] theorem advanceSegment_pending (s : State) : (advanceSegment s).pending = s.pending := rfl
@[simp] theorem advanceSegment_station (s : State) : (advanceSegment s).station = s.station := rfl
@[simp] theorem advanceSegment_settings (s : State) : (advanceSegment s).settings = s.settings := rfl
@[simp] theorem advanceSegment_host (s : State) : (advanceSegment s).host = s.host := rfl
@[simp] theorem advanceSegment_floor (s : State) : (advanceSegment s).floor = s.floor := rfl
@[simp] theorem advanceSegment_peers (s : State) : (advanceSegment s).peers = s.peers := rfl
@[simp] theorem advanceSegment_register (s : State) : (advanceSegment s).register = s.register := rfl
@[simp] theorem advanceSegment_claims (s : State) : (advanceSegment s).claims = s.claims := rfl
@[simp] theorem advanceSegment_staged (s : State) : (advanceSegment s).staged = s.staged := rfl
@[simp] theorem advanceSegment_charge (s : State) : (advanceSegment s).charge = s.charge := rfl
@[simp] theorem advanceSegment_water (s : State) : (advanceSegment s).water = s.water := rfl
@[simp] theorem advanceSegment_sump (s : State) : (advanceSegment s).sump = s.sump := rfl
@[simp] theorem advanceSegment_jobs (s : State) : (advanceSegment s).jobs = s.jobs := rfl
@[simp] theorem advanceSegment_store (s : State) : (advanceSegment s).store = s.store := rfl
@[simp] theorem advanceSegment_freeUses (s : State) : (advanceSegment s).freeUses = s.freeUses := rfl

/-! `setDrive` writes floor. -/

@[simp] theorem setDrive_pending (d : Option WindowDrive) (s : State) : (setDrive d s).pending = s.pending := rfl
@[simp] theorem setDrive_station (d : Option WindowDrive) (s : State) : (setDrive d s).station = s.station := rfl
@[simp] theorem setDrive_settings (d : Option WindowDrive) (s : State) : (setDrive d s).settings = s.settings := rfl
@[simp] theorem setDrive_host (d : Option WindowDrive) (s : State) : (setDrive d s).host = s.host := rfl
@[simp] theorem setDrive_peers (d : Option WindowDrive) (s : State) : (setDrive d s).peers = s.peers := rfl
@[simp] theorem setDrive_register (d : Option WindowDrive) (s : State) : (setDrive d s).register = s.register := rfl
@[simp] theorem setDrive_claims (d : Option WindowDrive) (s : State) : (setDrive d s).claims = s.claims := rfl
@[simp] theorem setDrive_staged (d : Option WindowDrive) (s : State) : (setDrive d s).staged = s.staged := rfl
@[simp] theorem setDrive_active (d : Option WindowDrive) (s : State) : (setDrive d s).active = s.active := rfl
@[simp] theorem setDrive_charge (d : Option WindowDrive) (s : State) : (setDrive d s).charge = s.charge := rfl
@[simp] theorem setDrive_water (d : Option WindowDrive) (s : State) : (setDrive d s).water = s.water := rfl
@[simp] theorem setDrive_sump (d : Option WindowDrive) (s : State) : (setDrive d s).sump = s.sump := rfl
@[simp] theorem setDrive_jobs (d : Option WindowDrive) (s : State) : (setDrive d s).jobs = s.jobs := rfl
@[simp] theorem setDrive_store (d : Option WindowDrive) (s : State) : (setDrive d s).store = s.store := rfl
@[simp] theorem setDrive_freeUses (d : Option WindowDrive) (s : State) : (setDrive d s).freeUses = s.freeUses := rfl

/-! `backToQueue` writes floor. -/

@[simp] theorem backToQueue_pending (s : State) : (backToQueue s).pending = s.pending := rfl
@[simp] theorem backToQueue_station (s : State) : (backToQueue s).station = s.station := rfl
@[simp] theorem backToQueue_settings (s : State) : (backToQueue s).settings = s.settings := rfl
@[simp] theorem backToQueue_host (s : State) : (backToQueue s).host = s.host := rfl
@[simp] theorem backToQueue_peers (s : State) : (backToQueue s).peers = s.peers := rfl
@[simp] theorem backToQueue_register (s : State) : (backToQueue s).register = s.register := rfl
@[simp] theorem backToQueue_claims (s : State) : (backToQueue s).claims = s.claims := rfl
@[simp] theorem backToQueue_staged (s : State) : (backToQueue s).staged = s.staged := rfl
@[simp] theorem backToQueue_active (s : State) : (backToQueue s).active = s.active := rfl
@[simp] theorem backToQueue_charge (s : State) : (backToQueue s).charge = s.charge := rfl
@[simp] theorem backToQueue_water (s : State) : (backToQueue s).water = s.water := rfl
@[simp] theorem backToQueue_sump (s : State) : (backToQueue s).sump = s.sump := rfl
@[simp] theorem backToQueue_jobs (s : State) : (backToQueue s).jobs = s.jobs := rfl
@[simp] theorem backToQueue_store (s : State) : (backToQueue s).store = s.store := rfl
@[simp] theorem backToQueue_freeUses (s : State) : (backToQueue s).freeUses = s.freeUses := rfl

/-! `stopDriving` writes floor. -/

@[simp] theorem stopDriving_pending (b : Option Nat) (s : State) : (stopDriving b s).pending = s.pending := rfl
@[simp] theorem stopDriving_station (b : Option Nat) (s : State) : (stopDriving b s).station = s.station := rfl
@[simp] theorem stopDriving_settings (b : Option Nat) (s : State) : (stopDriving b s).settings = s.settings := rfl
@[simp] theorem stopDriving_host (b : Option Nat) (s : State) : (stopDriving b s).host = s.host := rfl
@[simp] theorem stopDriving_peers (b : Option Nat) (s : State) : (stopDriving b s).peers = s.peers := rfl
@[simp] theorem stopDriving_register (b : Option Nat) (s : State) : (stopDriving b s).register = s.register := rfl
@[simp] theorem stopDriving_claims (b : Option Nat) (s : State) : (stopDriving b s).claims = s.claims := rfl
@[simp] theorem stopDriving_staged (b : Option Nat) (s : State) : (stopDriving b s).staged = s.staged := rfl
@[simp] theorem stopDriving_active (b : Option Nat) (s : State) : (stopDriving b s).active = s.active := rfl
@[simp] theorem stopDriving_charge (b : Option Nat) (s : State) : (stopDriving b s).charge = s.charge := rfl
@[simp] theorem stopDriving_water (b : Option Nat) (s : State) : (stopDriving b s).water = s.water := rfl
@[simp] theorem stopDriving_sump (b : Option Nat) (s : State) : (stopDriving b s).sump = s.sump := rfl
@[simp] theorem stopDriving_jobs (b : Option Nat) (s : State) : (stopDriving b s).jobs = s.jobs := rfl
@[simp] theorem stopDriving_store (b : Option Nat) (s : State) : (stopDriving b s).store = s.store := rfl
@[simp] theorem stopDriving_freeUses (b : Option Nat) (s : State) : (stopDriving b s).freeUses = s.freeUses := rfl

/-! `loseLine` writes floor. -/

@[simp] theorem loseLine_pending (b : Option Nat) (s : State) : (loseLine b s).pending = s.pending := rfl
@[simp] theorem loseLine_station (b : Option Nat) (s : State) : (loseLine b s).station = s.station := rfl
@[simp] theorem loseLine_settings (b : Option Nat) (s : State) : (loseLine b s).settings = s.settings := rfl
@[simp] theorem loseLine_host (b : Option Nat) (s : State) : (loseLine b s).host = s.host := rfl
@[simp] theorem loseLine_peers (b : Option Nat) (s : State) : (loseLine b s).peers = s.peers := rfl
@[simp] theorem loseLine_register (b : Option Nat) (s : State) : (loseLine b s).register = s.register := rfl
@[simp] theorem loseLine_claims (b : Option Nat) (s : State) : (loseLine b s).claims = s.claims := rfl
@[simp] theorem loseLine_staged (b : Option Nat) (s : State) : (loseLine b s).staged = s.staged := rfl
@[simp] theorem loseLine_active (b : Option Nat) (s : State) : (loseLine b s).active = s.active := rfl
@[simp] theorem loseLine_charge (b : Option Nat) (s : State) : (loseLine b s).charge = s.charge := rfl
@[simp] theorem loseLine_water (b : Option Nat) (s : State) : (loseLine b s).water = s.water := rfl
@[simp] theorem loseLine_sump (b : Option Nat) (s : State) : (loseLine b s).sump = s.sump := rfl
@[simp] theorem loseLine_jobs (b : Option Nat) (s : State) : (loseLine b s).jobs = s.jobs := rfl
@[simp] theorem loseLine_store (b : Option Nat) (s : State) : (loseLine b s).store = s.store := rfl
@[simp] theorem loseLine_freeUses (b : Option Nat) (s : State) : (loseLine b s).freeUses = s.freeUses := rfl

/-! `countUse` writes freeUses. -/

@[simp] theorem countUse_pending (u : Bool) (s : State) : (countUse u s).pending = s.pending := rfl
@[simp] theorem countUse_station (u : Bool) (s : State) : (countUse u s).station = s.station := rfl
@[simp] theorem countUse_settings (u : Bool) (s : State) : (countUse u s).settings = s.settings := rfl
@[simp] theorem countUse_host (u : Bool) (s : State) : (countUse u s).host = s.host := rfl
@[simp] theorem countUse_peers (u : Bool) (s : State) : (countUse u s).peers = s.peers := rfl
@[simp] theorem countUse_register (u : Bool) (s : State) : (countUse u s).register = s.register := rfl
@[simp] theorem countUse_claims (u : Bool) (s : State) : (countUse u s).claims = s.claims := rfl
@[simp] theorem countUse_staged (u : Bool) (s : State) : (countUse u s).staged = s.staged := rfl
@[simp] theorem countUse_active (u : Bool) (s : State) : (countUse u s).active = s.active := rfl
@[simp] theorem countUse_charge (u : Bool) (s : State) : (countUse u s).charge = s.charge := rfl
@[simp] theorem countUse_water (u : Bool) (s : State) : (countUse u s).water = s.water := rfl
@[simp] theorem countUse_sump (u : Bool) (s : State) : (countUse u s).sump = s.sump := rfl
@[simp] theorem countUse_jobs (u : Bool) (s : State) : (countUse u s).jobs = s.jobs := rfl
@[simp] theorem countUse_store (u : Bool) (s : State) : (countUse u s).store = s.store := rfl

@[simp] theorem countUse_floor (u : Bool) (s : State) : (countUse u s).floor = s.floor := rfl
@[simp] theorem countUse_freeUses (u : Bool) (s : State) : (countUse u s).freeUses = s.freeUses + bitIf u 1 := rfl

/-! `loseContention` writes floor. -/

@[simp] theorem loseContention_pending (k n : Nat) (s : State) : (loseContention k n s).pending = s.pending := by
  unfold loseContention; split <;> rfl
@[simp] theorem loseContention_station (k n : Nat) (s : State) : (loseContention k n s).station = s.station := by
  unfold loseContention; split <;> rfl
@[simp] theorem loseContention_settings (k n : Nat) (s : State) : (loseContention k n s).settings = s.settings := by
  unfold loseContention; split <;> rfl
@[simp] theorem loseContention_host (k n : Nat) (s : State) : (loseContention k n s).host = s.host := by
  unfold loseContention; split <;> rfl
@[simp] theorem loseContention_peers (k n : Nat) (s : State) : (loseContention k n s).peers = s.peers := by
  unfold loseContention; split <;> rfl
@[simp] theorem loseContention_register (k n : Nat) (s : State) : (loseContention k n s).register = s.register := by
  unfold loseContention; split <;> rfl
@[simp] theorem loseContention_claims (k n : Nat) (s : State) : (loseContention k n s).claims = s.claims := by
  unfold loseContention; split <;> rfl
@[simp] theorem loseContention_staged (k n : Nat) (s : State) : (loseContention k n s).staged = s.staged := by
  unfold loseContention; split <;> rfl
@[simp] theorem loseContention_active (k n : Nat) (s : State) : (loseContention k n s).active = s.active := by
  unfold loseContention; split <;> rfl
@[simp] theorem loseContention_charge (k n : Nat) (s : State) : (loseContention k n s).charge = s.charge := by
  unfold loseContention; split <;> rfl
@[simp] theorem loseContention_water (k n : Nat) (s : State) : (loseContention k n s).water = s.water := by
  unfold loseContention; split <;> rfl
@[simp] theorem loseContention_sump (k n : Nat) (s : State) : (loseContention k n s).sump = s.sump := by
  unfold loseContention; split <;> rfl
@[simp] theorem loseContention_jobs (k n : Nat) (s : State) : (loseContention k n s).jobs = s.jobs := by
  unfold loseContention; split <;> rfl
@[simp] theorem loseContention_store (k n : Nat) (s : State) : (loseContention k n s).store = s.store := by
  unfold loseContention; split <;> rfl
@[simp] theorem loseContention_freeUses (k n : Nat) (s : State) : (loseContention k n s).freeUses = s.freeUses := by
  unfold loseContention; split <;> rfl

/-! `takeNotice` writes floor. -/

@[simp] theorem takeNotice_pending (k n : Nat) (s : State) : (takeNotice k n s).pending = s.pending := by
  simp [takeNotice]
@[simp] theorem takeNotice_station (k n : Nat) (s : State) : (takeNotice k n s).station = s.station := by
  simp [takeNotice]
@[simp] theorem takeNotice_settings (k n : Nat) (s : State) : (takeNotice k n s).settings = s.settings := by
  simp [takeNotice]
@[simp] theorem takeNotice_host (k n : Nat) (s : State) : (takeNotice k n s).host = s.host := by
  simp [takeNotice]
@[simp] theorem takeNotice_peers (k n : Nat) (s : State) : (takeNotice k n s).peers = s.peers := by
  simp [takeNotice]
@[simp] theorem takeNotice_register (k n : Nat) (s : State) : (takeNotice k n s).register = s.register := by
  simp [takeNotice]
@[simp] theorem takeNotice_claims (k n : Nat) (s : State) : (takeNotice k n s).claims = s.claims := by
  simp [takeNotice]
@[simp] theorem takeNotice_staged (k n : Nat) (s : State) : (takeNotice k n s).staged = s.staged := by
  simp [takeNotice]
@[simp] theorem takeNotice_active (k n : Nat) (s : State) : (takeNotice k n s).active = s.active := by
  simp [takeNotice]
@[simp] theorem takeNotice_charge (k n : Nat) (s : State) : (takeNotice k n s).charge = s.charge := by
  simp [takeNotice]
@[simp] theorem takeNotice_water (k n : Nat) (s : State) : (takeNotice k n s).water = s.water := by
  simp [takeNotice]
@[simp] theorem takeNotice_sump (k n : Nat) (s : State) : (takeNotice k n s).sump = s.sump := by
  simp [takeNotice]
@[simp] theorem takeNotice_jobs (k n : Nat) (s : State) : (takeNotice k n s).jobs = s.jobs := by
  simp [takeNotice]
@[simp] theorem takeNotice_store (k n : Nat) (s : State) : (takeNotice k n s).store = s.store := by
  simp [takeNotice]
@[simp] theorem takeNotice_freeUses (k n : Nat) (s : State) : (takeNotice k n s).freeUses = s.freeUses := by
  simp [takeNotice]

/-! `countCheckError` writes floor. -/

@[simp] theorem countCheckError_pending (s : State) : (countCheckError s).pending = s.pending := rfl
@[simp] theorem countCheckError_station (s : State) : (countCheckError s).station = s.station := rfl
@[simp] theorem countCheckError_settings (s : State) : (countCheckError s).settings = s.settings := rfl
@[simp] theorem countCheckError_host (s : State) : (countCheckError s).host = s.host := rfl
@[simp] theorem countCheckError_peers (s : State) : (countCheckError s).peers = s.peers := rfl
@[simp] theorem countCheckError_register (s : State) : (countCheckError s).register = s.register := rfl
@[simp] theorem countCheckError_claims (s : State) : (countCheckError s).claims = s.claims := rfl
@[simp] theorem countCheckError_staged (s : State) : (countCheckError s).staged = s.staged := rfl
@[simp] theorem countCheckError_active (s : State) : (countCheckError s).active = s.active := rfl
@[simp] theorem countCheckError_charge (s : State) : (countCheckError s).charge = s.charge := rfl
@[simp] theorem countCheckError_water (s : State) : (countCheckError s).water = s.water := rfl
@[simp] theorem countCheckError_sump (s : State) : (countCheckError s).sump = s.sump := rfl
@[simp] theorem countCheckError_jobs (s : State) : (countCheckError s).jobs = s.jobs := rfl
@[simp] theorem countCheckError_store (s : State) : (countCheckError s).store = s.store := rfl
@[simp] theorem countCheckError_freeUses (s : State) : (countCheckError s).freeUses = s.freeUses := rfl

/-! `countFormatError` writes floor. -/

@[simp] theorem countFormatError_pending (s : State) : (countFormatError s).pending = s.pending := rfl
@[simp] theorem countFormatError_station (s : State) : (countFormatError s).station = s.station := rfl
@[simp] theorem countFormatError_settings (s : State) : (countFormatError s).settings = s.settings := rfl
@[simp] theorem countFormatError_host (s : State) : (countFormatError s).host = s.host := rfl
@[simp] theorem countFormatError_peers (s : State) : (countFormatError s).peers = s.peers := rfl
@[simp] theorem countFormatError_register (s : State) : (countFormatError s).register = s.register := rfl
@[simp] theorem countFormatError_claims (s : State) : (countFormatError s).claims = s.claims := rfl
@[simp] theorem countFormatError_staged (s : State) : (countFormatError s).staged = s.staged := rfl
@[simp] theorem countFormatError_active (s : State) : (countFormatError s).active = s.active := rfl
@[simp] theorem countFormatError_charge (s : State) : (countFormatError s).charge = s.charge := rfl
@[simp] theorem countFormatError_water (s : State) : (countFormatError s).water = s.water := rfl
@[simp] theorem countFormatError_sump (s : State) : (countFormatError s).sump = s.sump := rfl
@[simp] theorem countFormatError_jobs (s : State) : (countFormatError s).jobs = s.jobs := rfl
@[simp] theorem countFormatError_store (s : State) : (countFormatError s).store = s.store := rfl
@[simp] theorem countFormatError_freeUses (s : State) : (countFormatError s).freeUses = s.freeUses := rfl

/-! `countLineFault` writes floor. -/

@[simp] theorem countLineFault_pending (s : State) : (countLineFault s).pending = s.pending := rfl
@[simp] theorem countLineFault_station (s : State) : (countLineFault s).station = s.station := rfl
@[simp] theorem countLineFault_settings (s : State) : (countLineFault s).settings = s.settings := rfl
@[simp] theorem countLineFault_host (s : State) : (countLineFault s).host = s.host := rfl
@[simp] theorem countLineFault_peers (s : State) : (countLineFault s).peers = s.peers := rfl
@[simp] theorem countLineFault_register (s : State) : (countLineFault s).register = s.register := rfl
@[simp] theorem countLineFault_claims (s : State) : (countLineFault s).claims = s.claims := rfl
@[simp] theorem countLineFault_staged (s : State) : (countLineFault s).staged = s.staged := rfl
@[simp] theorem countLineFault_active (s : State) : (countLineFault s).active = s.active := rfl
@[simp] theorem countLineFault_charge (s : State) : (countLineFault s).charge = s.charge := rfl
@[simp] theorem countLineFault_water (s : State) : (countLineFault s).water = s.water := rfl
@[simp] theorem countLineFault_sump (s : State) : (countLineFault s).sump = s.sump := rfl
@[simp] theorem countLineFault_jobs (s : State) : (countLineFault s).jobs = s.jobs := rfl
@[simp] theorem countLineFault_store (s : State) : (countLineFault s).store = s.store := rfl
@[simp] theorem countLineFault_freeUses (s : State) : (countLineFault s).freeUses = s.freeUses := rfl

/-! `loseStep` writes floor. -/

@[simp] theorem loseStep_pending (s : State) : (loseStep s).pending = s.pending := by
  unfold loseStep; split <;> rfl
@[simp] theorem loseStep_station (s : State) : (loseStep s).station = s.station := by
  unfold loseStep; split <;> rfl
@[simp] theorem loseStep_settings (s : State) : (loseStep s).settings = s.settings := by
  unfold loseStep; split <;> rfl
@[simp] theorem loseStep_host (s : State) : (loseStep s).host = s.host := by
  unfold loseStep; split <;> rfl
@[simp] theorem loseStep_peers (s : State) : (loseStep s).peers = s.peers := by
  unfold loseStep; split <;> rfl
@[simp] theorem loseStep_register (s : State) : (loseStep s).register = s.register := by
  unfold loseStep; split <;> rfl
@[simp] theorem loseStep_claims (s : State) : (loseStep s).claims = s.claims := by
  unfold loseStep; split <;> rfl
@[simp] theorem loseStep_staged (s : State) : (loseStep s).staged = s.staged := by
  unfold loseStep; split <;> rfl
@[simp] theorem loseStep_active (s : State) : (loseStep s).active = s.active := by
  unfold loseStep; split <;> rfl
@[simp] theorem loseStep_charge (s : State) : (loseStep s).charge = s.charge := by
  unfold loseStep; split <;> rfl
@[simp] theorem loseStep_water (s : State) : (loseStep s).water = s.water := by
  unfold loseStep; split <;> rfl
@[simp] theorem loseStep_sump (s : State) : (loseStep s).sump = s.sump := by
  unfold loseStep; split <;> rfl
@[simp] theorem loseStep_jobs (s : State) : (loseStep s).jobs = s.jobs := by
  unfold loseStep; split <;> rfl
@[simp] theorem loseStep_store (s : State) : (loseStep s).store = s.store := by
  unfold loseStep; split <;> rfl
@[simp] theorem loseStep_freeUses (s : State) : (loseStep s).freeUses = s.freeUses := by
  unfold loseStep; split <;> rfl

/-! `setPeer` writes peers. -/

@[simp] theorem setPeer_pending (k : Nat) (p : Peer) (s : State) : (setPeer k p s).pending = s.pending := by
  unfold setPeer; split <;> rfl
@[simp] theorem setPeer_station (k : Nat) (p : Peer) (s : State) : (setPeer k p s).station = s.station := by
  unfold setPeer; split <;> rfl
@[simp] theorem setPeer_settings (k : Nat) (p : Peer) (s : State) : (setPeer k p s).settings = s.settings := by
  unfold setPeer; split <;> rfl
@[simp] theorem setPeer_host (k : Nat) (p : Peer) (s : State) : (setPeer k p s).host = s.host := by
  unfold setPeer; split <;> rfl
@[simp] theorem setPeer_floor (k : Nat) (p : Peer) (s : State) : (setPeer k p s).floor = s.floor := by
  unfold setPeer; split <;> rfl
@[simp] theorem setPeer_register (k : Nat) (p : Peer) (s : State) : (setPeer k p s).register = s.register := by
  unfold setPeer; split <;> rfl
@[simp] theorem setPeer_claims (k : Nat) (p : Peer) (s : State) : (setPeer k p s).claims = s.claims := by
  unfold setPeer; split <;> rfl
@[simp] theorem setPeer_staged (k : Nat) (p : Peer) (s : State) : (setPeer k p s).staged = s.staged := by
  unfold setPeer; split <;> rfl
@[simp] theorem setPeer_active (k : Nat) (p : Peer) (s : State) : (setPeer k p s).active = s.active := by
  unfold setPeer; split <;> rfl
@[simp] theorem setPeer_charge (k : Nat) (p : Peer) (s : State) : (setPeer k p s).charge = s.charge := by
  unfold setPeer; split <;> rfl
@[simp] theorem setPeer_water (k : Nat) (p : Peer) (s : State) : (setPeer k p s).water = s.water := by
  unfold setPeer; split <;> rfl
@[simp] theorem setPeer_sump (k : Nat) (p : Peer) (s : State) : (setPeer k p s).sump = s.sump := by
  unfold setPeer; split <;> rfl
@[simp] theorem setPeer_jobs (k : Nat) (p : Peer) (s : State) : (setPeer k p s).jobs = s.jobs := by
  unfold setPeer; split <;> rfl
@[simp] theorem setPeer_store (k : Nat) (p : Peer) (s : State) : (setPeer k p s).store = s.store := by
  unfold setPeer; split <;> rfl
@[simp] theorem setPeer_freeUses (k : Nat) (p : Peer) (s : State) : (setPeer k p s).freeUses = s.freeUses := by
  unfold setPeer; split <;> rfl

/-! `peerHeard` writes peers, host, active, water, register, floor, claims. -/

@[simp] theorem peerHeard_pending (k : Nat) (d : Option Nat) (s : State) : (peerHeard k d s).pending = s.pending := by
  unfold peerHeard; simp only; split <;> split <;> simp
@[simp] theorem peerHeard_station (k : Nat) (d : Option Nat) (s : State) : (peerHeard k d s).station = s.station := by
  unfold peerHeard; simp only; split <;> split <;> simp
@[simp] theorem peerHeard_settings (k : Nat) (d : Option Nat) (s : State) : (peerHeard k d s).settings = s.settings := by
  unfold peerHeard; simp only; split <;> split <;> simp
@[simp] theorem peerHeard_staged (k : Nat) (d : Option Nat) (s : State) : (peerHeard k d s).staged = s.staged := by
  unfold peerHeard; simp only; split <;> split <;> simp
@[simp] theorem peerHeard_charge (k : Nat) (d : Option Nat) (s : State) : (peerHeard k d s).charge = s.charge := by
  unfold peerHeard; simp only; split <;> split <;> simp
@[simp] theorem peerHeard_sump (k : Nat) (d : Option Nat) (s : State) : (peerHeard k d s).sump = s.sump := by
  unfold peerHeard; simp only; split <;> split <;> simp
@[simp] theorem peerHeard_jobs (k : Nat) (d : Option Nat) (s : State) : (peerHeard k d s).jobs = s.jobs := by
  unfold peerHeard; simp only; split <;> split <;> simp
@[simp] theorem peerHeard_store (k : Nat) (d : Option Nat) (s : State) : (peerHeard k d s).store = s.store := by
  unfold peerHeard; simp only; split <;> split <;> simp
@[simp] theorem peerHeard_freeUses (k : Nat) (d : Option Nat) (s : State) : (peerHeard k d s).freeUses = s.freeUses := by
  unfold peerHeard; simp only; split <;> split <;> simp

/-! `stopRefresh` writes water. -/

@[simp] theorem stopRefresh_pending (s : State) : (stopRefresh s).pending = s.pending := rfl
@[simp] theorem stopRefresh_station (s : State) : (stopRefresh s).station = s.station := rfl
@[simp] theorem stopRefresh_settings (s : State) : (stopRefresh s).settings = s.settings := rfl
@[simp] theorem stopRefresh_host (s : State) : (stopRefresh s).host = s.host := rfl
@[simp] theorem stopRefresh_floor (s : State) : (stopRefresh s).floor = s.floor := rfl
@[simp] theorem stopRefresh_peers (s : State) : (stopRefresh s).peers = s.peers := rfl
@[simp] theorem stopRefresh_register (s : State) : (stopRefresh s).register = s.register := rfl
@[simp] theorem stopRefresh_claims (s : State) : (stopRefresh s).claims = s.claims := rfl
@[simp] theorem stopRefresh_staged (s : State) : (stopRefresh s).staged = s.staged := rfl
@[simp] theorem stopRefresh_active (s : State) : (stopRefresh s).active = s.active := rfl
@[simp] theorem stopRefresh_charge (s : State) : (stopRefresh s).charge = s.charge := rfl
@[simp] theorem stopRefresh_sump (s : State) : (stopRefresh s).sump = s.sump := rfl
@[simp] theorem stopRefresh_jobs (s : State) : (stopRefresh s).jobs = s.jobs := rfl
@[simp] theorem stopRefresh_store (s : State) : (stopRefresh s).store = s.store := rfl
@[simp] theorem stopRefresh_freeUses (s : State) : (stopRefresh s).freeUses = s.freeUses := rfl

/-! `shift` writes host. -/

@[simp] theorem shift_pending (b : List Byte) (s : State) : (shift b s).pending = s.pending := rfl
@[simp] theorem shift_station (b : List Byte) (s : State) : (shift b s).station = s.station := rfl
@[simp] theorem shift_settings (b : List Byte) (s : State) : (shift b s).settings = s.settings := rfl
@[simp] theorem shift_floor (b : List Byte) (s : State) : (shift b s).floor = s.floor := rfl
@[simp] theorem shift_peers (b : List Byte) (s : State) : (shift b s).peers = s.peers := rfl
@[simp] theorem shift_register (b : List Byte) (s : State) : (shift b s).register = s.register := rfl
@[simp] theorem shift_claims (b : List Byte) (s : State) : (shift b s).claims = s.claims := rfl
@[simp] theorem shift_staged (b : List Byte) (s : State) : (shift b s).staged = s.staged := rfl
@[simp] theorem shift_active (b : List Byte) (s : State) : (shift b s).active = s.active := rfl
@[simp] theorem shift_charge (b : List Byte) (s : State) : (shift b s).charge = s.charge := rfl
@[simp] theorem shift_water (b : List Byte) (s : State) : (shift b s).water = s.water := rfl
@[simp] theorem shift_sump (b : List Byte) (s : State) : (shift b s).sump = s.sump := rfl
@[simp] theorem shift_jobs (b : List Byte) (s : State) : (shift b s).jobs = s.jobs := rfl
@[simp] theorem shift_store (b : List Byte) (s : State) : (shift b s).store = s.store := rfl
@[simp] theorem shift_freeUses (b : List Byte) (s : State) : (shift b s).freeUses = s.freeUses := rfl

/-! `clearTaken` writes host. -/

@[simp] theorem clearTaken_pending (s : State) : (clearTaken s).pending = s.pending := rfl
@[simp] theorem clearTaken_station (s : State) : (clearTaken s).station = s.station := rfl
@[simp] theorem clearTaken_settings (s : State) : (clearTaken s).settings = s.settings := rfl
@[simp] theorem clearTaken_floor (s : State) : (clearTaken s).floor = s.floor := rfl
@[simp] theorem clearTaken_peers (s : State) : (clearTaken s).peers = s.peers := rfl
@[simp] theorem clearTaken_register (s : State) : (clearTaken s).register = s.register := rfl
@[simp] theorem clearTaken_claims (s : State) : (clearTaken s).claims = s.claims := rfl
@[simp] theorem clearTaken_staged (s : State) : (clearTaken s).staged = s.staged := rfl
@[simp] theorem clearTaken_active (s : State) : (clearTaken s).active = s.active := rfl
@[simp] theorem clearTaken_charge (s : State) : (clearTaken s).charge = s.charge := rfl
@[simp] theorem clearTaken_water (s : State) : (clearTaken s).water = s.water := rfl
@[simp] theorem clearTaken_sump (s : State) : (clearTaken s).sump = s.sump := rfl
@[simp] theorem clearTaken_jobs (s : State) : (clearTaken s).jobs = s.jobs := rfl
@[simp] theorem clearTaken_store (s : State) : (clearTaken s).store = s.store := rfl
@[simp] theorem clearTaken_freeUses (s : State) : (clearTaken s).freeUses = s.freeUses := rfl

/-! `sendTail` writes floor. -/

@[simp] theorem sendTail_pending (n : Notice) (o : Bool) (s : State) : (sendTail n o s).pending = s.pending := rfl
@[simp] theorem sendTail_station (n : Notice) (o : Bool) (s : State) : (sendTail n o s).station = s.station := rfl
@[simp] theorem sendTail_settings (n : Notice) (o : Bool) (s : State) : (sendTail n o s).settings = s.settings := rfl
@[simp] theorem sendTail_host (n : Notice) (o : Bool) (s : State) : (sendTail n o s).host = s.host := rfl
@[simp] theorem sendTail_peers (n : Notice) (o : Bool) (s : State) : (sendTail n o s).peers = s.peers := rfl
@[simp] theorem sendTail_register (n : Notice) (o : Bool) (s : State) : (sendTail n o s).register = s.register := rfl
@[simp] theorem sendTail_claims (n : Notice) (o : Bool) (s : State) : (sendTail n o s).claims = s.claims := rfl
@[simp] theorem sendTail_staged (n : Notice) (o : Bool) (s : State) : (sendTail n o s).staged = s.staged := rfl
@[simp] theorem sendTail_active (n : Notice) (o : Bool) (s : State) : (sendTail n o s).active = s.active := rfl
@[simp] theorem sendTail_charge (n : Notice) (o : Bool) (s : State) : (sendTail n o s).charge = s.charge := rfl
@[simp] theorem sendTail_water (n : Notice) (o : Bool) (s : State) : (sendTail n o s).water = s.water := rfl
@[simp] theorem sendTail_sump (n : Notice) (o : Bool) (s : State) : (sendTail n o s).sump = s.sump := rfl
@[simp] theorem sendTail_jobs (n : Notice) (o : Bool) (s : State) : (sendTail n o s).jobs = s.jobs := rfl
@[simp] theorem sendTail_store (n : Notice) (o : Bool) (s : State) : (sendTail n o s).store = s.store := rfl
@[simp] theorem sendTail_freeUses (n : Notice) (o : Bool) (s : State) : (sendTail n o s).freeUses = s.freeUses := rfl

/-! `endSending` writes floor. -/

@[simp] theorem endSending_pending (e : TxEntry) (s : State) : (endSending e s).pending = s.pending := rfl
@[simp] theorem endSending_station (e : TxEntry) (s : State) : (endSending e s).station = s.station := rfl
@[simp] theorem endSending_settings (e : TxEntry) (s : State) : (endSending e s).settings = s.settings := rfl
@[simp] theorem endSending_host (e : TxEntry) (s : State) : (endSending e s).host = s.host := rfl
@[simp] theorem endSending_peers (e : TxEntry) (s : State) : (endSending e s).peers = s.peers := rfl
@[simp] theorem endSending_register (e : TxEntry) (s : State) : (endSending e s).register = s.register := rfl
@[simp] theorem endSending_claims (e : TxEntry) (s : State) : (endSending e s).claims = s.claims := rfl
@[simp] theorem endSending_staged (e : TxEntry) (s : State) : (endSending e s).staged = s.staged := rfl
@[simp] theorem endSending_active (e : TxEntry) (s : State) : (endSending e s).active = s.active := rfl
@[simp] theorem endSending_charge (e : TxEntry) (s : State) : (endSending e s).charge = s.charge := rfl
@[simp] theorem endSending_water (e : TxEntry) (s : State) : (endSending e s).water = s.water := rfl
@[simp] theorem endSending_sump (e : TxEntry) (s : State) : (endSending e s).sump = s.sump := rfl
@[simp] theorem endSending_jobs (e : TxEntry) (s : State) : (endSending e s).jobs = s.jobs := rfl
@[simp] theorem endSending_store (e : TxEntry) (s : State) : (endSending e s).store = s.store := rfl
@[simp] theorem endSending_freeUses (e : TxEntry) (s : State) : (endSending e s).freeUses = s.freeUses := rfl

/-! `stopAtMismatch` writes floor and freeUses. -/

@[simp] theorem stopAtMismatch_pending (n : Notice) (s : State) : (stopAtMismatch n s).pending = s.pending := rfl
@[simp] theorem stopAtMismatch_station (n : Notice) (s : State) : (stopAtMismatch n s).station = s.station := rfl
@[simp] theorem stopAtMismatch_settings (n : Notice) (s : State) : (stopAtMismatch n s).settings = s.settings := rfl
@[simp] theorem stopAtMismatch_host (n : Notice) (s : State) : (stopAtMismatch n s).host = s.host := rfl
@[simp] theorem stopAtMismatch_peers (n : Notice) (s : State) : (stopAtMismatch n s).peers = s.peers := rfl
@[simp] theorem stopAtMismatch_register (n : Notice) (s : State) : (stopAtMismatch n s).register = s.register := rfl
@[simp] theorem stopAtMismatch_claims (n : Notice) (s : State) : (stopAtMismatch n s).claims = s.claims := rfl
@[simp] theorem stopAtMismatch_staged (n : Notice) (s : State) : (stopAtMismatch n s).staged = s.staged := rfl
@[simp] theorem stopAtMismatch_active (n : Notice) (s : State) : (stopAtMismatch n s).active = s.active := rfl
@[simp] theorem stopAtMismatch_charge (n : Notice) (s : State) : (stopAtMismatch n s).charge = s.charge := rfl
@[simp] theorem stopAtMismatch_water (n : Notice) (s : State) : (stopAtMismatch n s).water = s.water := rfl
@[simp] theorem stopAtMismatch_sump (n : Notice) (s : State) : (stopAtMismatch n s).sump = s.sump := rfl
@[simp] theorem stopAtMismatch_jobs (n : Notice) (s : State) : (stopAtMismatch n s).jobs = s.jobs := rfl
@[simp] theorem stopAtMismatch_store (n : Notice) (s : State) : (stopAtMismatch n s).store = s.store := rfl

/-! `shiftHead` writes host. -/

@[simp] theorem shiftHead_pending (n : Nat) (s : State) : (shiftHead n s).pending = s.pending := by
  unfold shiftHead; repeat (first | rfl | split)
@[simp] theorem shiftHead_station (n : Nat) (s : State) : (shiftHead n s).station = s.station := by
  unfold shiftHead; repeat (first | rfl | split)
@[simp] theorem shiftHead_settings (n : Nat) (s : State) : (shiftHead n s).settings = s.settings := by
  unfold shiftHead; repeat (first | rfl | split)
@[simp] theorem shiftHead_floor (n : Nat) (s : State) : (shiftHead n s).floor = s.floor := by
  unfold shiftHead; repeat (first | rfl | split)
@[simp] theorem shiftHead_peers (n : Nat) (s : State) : (shiftHead n s).peers = s.peers := by
  unfold shiftHead; repeat (first | rfl | split)
@[simp] theorem shiftHead_register (n : Nat) (s : State) : (shiftHead n s).register = s.register := by
  unfold shiftHead; repeat (first | rfl | split)
@[simp] theorem shiftHead_claims (n : Nat) (s : State) : (shiftHead n s).claims = s.claims := by
  unfold shiftHead; repeat (first | rfl | split)
@[simp] theorem shiftHead_staged (n : Nat) (s : State) : (shiftHead n s).staged = s.staged := by
  unfold shiftHead; repeat (first | rfl | split)
@[simp] theorem shiftHead_active (n : Nat) (s : State) : (shiftHead n s).active = s.active := by
  unfold shiftHead; repeat (first | rfl | split)
@[simp] theorem shiftHead_charge (n : Nat) (s : State) : (shiftHead n s).charge = s.charge := by
  unfold shiftHead; repeat (first | rfl | split)
@[simp] theorem shiftHead_water (n : Nat) (s : State) : (shiftHead n s).water = s.water := by
  unfold shiftHead; repeat (first | rfl | split)
@[simp] theorem shiftHead_sump (n : Nat) (s : State) : (shiftHead n s).sump = s.sump := by
  unfold shiftHead; repeat (first | rfl | split)
@[simp] theorem shiftHead_jobs (n : Nat) (s : State) : (shiftHead n s).jobs = s.jobs := by
  unfold shiftHead; repeat (first | rfl | split)
@[simp] theorem shiftHead_store (n : Nat) (s : State) : (shiftHead n s).store = s.store := by
  unfold shiftHead; repeat (first | rfl | split)
@[simp] theorem shiftHead_freeUses (n : Nat) (s : State) : (shiftHead n s).freeUses = s.freeUses := by
  unfold shiftHead; repeat (first | rfl | split)

/-! `shiftCut` writes host. -/

@[simp] theorem shiftCut_pending (c : CutFrame) (s : State) : (shiftCut c s).pending = s.pending := by
  unfold shiftCut; split <;> rfl
@[simp] theorem shiftCut_station (c : CutFrame) (s : State) : (shiftCut c s).station = s.station := by
  unfold shiftCut; split <;> rfl
@[simp] theorem shiftCut_settings (c : CutFrame) (s : State) : (shiftCut c s).settings = s.settings := by
  unfold shiftCut; split <;> rfl
@[simp] theorem shiftCut_floor (c : CutFrame) (s : State) : (shiftCut c s).floor = s.floor := by
  unfold shiftCut; split <;> rfl
@[simp] theorem shiftCut_peers (c : CutFrame) (s : State) : (shiftCut c s).peers = s.peers := by
  unfold shiftCut; split <;> rfl
@[simp] theorem shiftCut_register (c : CutFrame) (s : State) : (shiftCut c s).register = s.register := by
  unfold shiftCut; split <;> rfl
@[simp] theorem shiftCut_claims (c : CutFrame) (s : State) : (shiftCut c s).claims = s.claims := by
  unfold shiftCut; split <;> rfl
@[simp] theorem shiftCut_staged (c : CutFrame) (s : State) : (shiftCut c s).staged = s.staged := by
  unfold shiftCut; split <;> rfl
@[simp] theorem shiftCut_active (c : CutFrame) (s : State) : (shiftCut c s).active = s.active := by
  unfold shiftCut; split <;> rfl
@[simp] theorem shiftCut_charge (c : CutFrame) (s : State) : (shiftCut c s).charge = s.charge := by
  unfold shiftCut; split <;> rfl
@[simp] theorem shiftCut_water (c : CutFrame) (s : State) : (shiftCut c s).water = s.water := by
  unfold shiftCut; split <;> rfl
@[simp] theorem shiftCut_sump (c : CutFrame) (s : State) : (shiftCut c s).sump = s.sump := by
  unfold shiftCut; split <;> rfl
@[simp] theorem shiftCut_jobs (c : CutFrame) (s : State) : (shiftCut c s).jobs = s.jobs := by
  unfold shiftCut; split <;> rfl
@[simp] theorem shiftCut_store (c : CutFrame) (s : State) : (shiftCut c s).store = s.store := by
  unfold shiftCut; split <;> rfl
@[simp] theorem shiftCut_freeUses (c : CutFrame) (s : State) : (shiftCut c s).freeUses = s.freeUses := by
  unfold shiftCut; split <;> rfl

/-! `cutReading` writes host. -/

@[simp] theorem cutReading_pending (c : CutFrame) (s : State) : (cutReading c s).pending = s.pending := by
  cases c <;> simp [cutReading]
@[simp] theorem cutReading_station (c : CutFrame) (s : State) : (cutReading c s).station = s.station := by
  cases c <;> simp [cutReading]
@[simp] theorem cutReading_settings (c : CutFrame) (s : State) : (cutReading c s).settings = s.settings := by
  cases c <;> simp [cutReading]
@[simp] theorem cutReading_floor (c : CutFrame) (s : State) : (cutReading c s).floor = s.floor := by
  cases c <;> simp [cutReading]
@[simp] theorem cutReading_peers (c : CutFrame) (s : State) : (cutReading c s).peers = s.peers := by
  cases c <;> simp [cutReading]
@[simp] theorem cutReading_register (c : CutFrame) (s : State) : (cutReading c s).register = s.register := by
  cases c <;> simp [cutReading]
@[simp] theorem cutReading_claims (c : CutFrame) (s : State) : (cutReading c s).claims = s.claims := by
  cases c <;> simp [cutReading]
@[simp] theorem cutReading_staged (c : CutFrame) (s : State) : (cutReading c s).staged = s.staged := by
  cases c <;> simp [cutReading]
@[simp] theorem cutReading_active (c : CutFrame) (s : State) : (cutReading c s).active = s.active := by
  cases c <;> simp [cutReading]
@[simp] theorem cutReading_charge (c : CutFrame) (s : State) : (cutReading c s).charge = s.charge := by
  cases c <;> simp [cutReading]
@[simp] theorem cutReading_water (c : CutFrame) (s : State) : (cutReading c s).water = s.water := by
  cases c <;> simp [cutReading]
@[simp] theorem cutReading_sump (c : CutFrame) (s : State) : (cutReading c s).sump = s.sump := by
  cases c <;> simp [cutReading]
@[simp] theorem cutReading_jobs (c : CutFrame) (s : State) : (cutReading c s).jobs = s.jobs := by
  cases c <;> simp [cutReading]
@[simp] theorem cutReading_store (c : CutFrame) (s : State) : (cutReading c s).store = s.store := by
  cases c <;> simp [cutReading]
@[simp] theorem cutReading_freeUses (c : CutFrame) (s : State) : (cutReading c s).freeUses = s.freeUses := by
  cases c <;> simp [cutReading]

end Sys2Proof.Machine
end

