-- ==== Sys2Proof/Laws/Ops.lean ====
section
/-! SUPPORT. One lemma per shared operation that says what it can do: admitting reports and order frames, the store write
queue, taking a command, handing notices, and the operations that recurse. -/

namespace Sys2Proof.Machine

/-! ### The cyclic check -/

/-- R186: the check of some bytes is `checkByte` applied to them in turn, from all ones. -/
theorem checkFrom_eq_foldl (r : BitVec 16) (bs : List Byte) : checkFrom r bs = bs.foldl checkByte r := by
  induction bs generalizing r with
  | nil => rfl
  | cons b bs ih =>
    rw [checkFrom, List.foldl_cons, ← ih]
    split <;> rename_i h
    · rw [show checkByte r b = 0#16 from BitVec.eq_of_toNat_eq (by simpa using h)]
    · rw [← Nat.succ_eq_add_one, ← h, BitVec.ofNat_toNat, BitVec.setWidth_eq]

/-! ### Rounding up, and choosing among records -/

/-- R105: a quotient rounded up is the least number of divisors that reaches the dividend. -/
theorem ceilDiv_isLeast (a b : Nat) (hb : 0 < b) : IsLeast { n : Nat | a ≤ n * b } (ceilDiv a b) := by
  have hm : ∀ n, b * n = n * b := fun n => Nat.mul_comm b n
  constructor
  · have hd := Nat.div_add_mod (a + b - 1) b
    have hl := Nat.mod_lt (a + b - 1) hb
    rw [hm] at hd
    simp only [Set.mem_ofPred_eq, ceilDiv]
    omega
  · intro n hn
    rw [Set.mem_ofPred_eq, ← hm] at hn
    rw [ceilDiv, Nat.div_le_iff_le_mul_add_pred hb]
    omega

/-- R9: what `oldestOf` answers is a record heard least recently, of the least id among those. -/
theorem oldestOf_spec {l : List SlabRecord} {r : SlabRecord} (h : oldestOf l = some r) :
    r ∈ l ∧ ∀ q ∈ l, r.heard < q.heard ∨ (r.heard = q.heard ∧ r.id ≤ q.id) := by
  cases l with
  | nil => simp [oldestOf] at h
  | cons a l =>
    simp only [oldestOf, Option.some.injEq] at h
    subst h
    induction l generalizing a with
    | nil => simp
    | cons x l ih =>
      rw [List.foldl_cons]
      obtain ⟨hmem, hle⟩ := ih (if olderRecord x a then x else a)
      generalize List.foldl _ _ l = z at *
      refine ⟨?_, fun q hq => ?_⟩
      · split at hmem <;> simp at * <;> tauto
      · have hz := hle (if olderRecord x a then x else a) (by simp)
        simp only [olderRecord, Bool.or_eq_true, Bool.and_eq_true, decide_eq_true_eq, beq_iff_eq] at hz
        simp only [List.mem_cons] at hq
        rcases hq with rfl | rfl | hq
        · split at hz <;> omega
        · split at hz <;> omega
        · exact hle q (by simp [hq])

/-- R20: inserting an entry adds it, and keeps the ids ascending. -/
theorem insertById_spec (e : Nat × SlabState) (l : List (Nat × SlabState)) :
    (insertById e l).Perm (e :: l) ∧
    ((l.map (·.1)).Pairwise (· ≤ ·) → ((insertById e l).map (·.1)).Pairwise (· ≤ ·)) := by
  induction l with
  | nil => simp [insertById]
  | cons x l ih =>
    unfold insertById; split
    · rename_i h
      refine ⟨.refl _, fun hp => ?_⟩
      simp only [List.map_cons, List.pairwise_cons] at hp ⊢
      exact ⟨fun a ha => (List.mem_cons.1 ha).elim (· ▸ h) fun ha => h.trans (hp.1 a ha), hp⟩
    · rename_i h
      refine ⟨(ih.1.cons _).trans (.swap _ _ _), fun hp => ?_⟩
      simp only [List.map_cons, List.pairwise_cons] at hp ⊢
      refine ⟨fun a ha => ?_, ih.2 hp.2⟩
      have hm := (ih.1.map (·.1)).mem_iff.1 ha
      simp only [List.map_cons, List.mem_cons] at hm
      exact hm.elim (fun he => by omega) (hp.1 a)

/-! ### The serial counter -/

/-- R2: the search for a serial goes on from one that is held to the next, and stops at the first that is not, or when its
tries are spent. -/
theorem freeSerial_spec (s : State) (tries n : Nat) :
    ∃ k ≤ tries, freeSerial s tries n = nextSerial^[k] n ∧
      (∀ j < k, (findSlab s (s.own * 2048 + nextSerial^[j] n)).isSome = true) ∧
      (k < tries → findSlab s (s.own * 2048 + nextSerial^[k] n) = none) := by
  induction tries generalizing n with
  | zero => exact ⟨0, le_rfl, rfl, fun _ h => absurd h (by omega), fun h => absurd h (by omega)⟩
  | succ tries ih =>
    unfold freeSerial; split
    · rename_i held
      obtain ⟨k, hk, hval, hheld, hfree⟩ := ih (nextSerial n)
      refine ⟨k + 1, by omega, hval, fun j hj => ?_, fun hlt => hfree (by omega)⟩
      cases j with
      | zero => exact held
      | succ j => exact hheld j (by omega)
    · rename_i free
      exact ⟨0, by omega, rfl, fun _ h => absurd h (by omega), fun _ => by simpa using free⟩

/-! ### The bit at which the line is lost -/

/-- R154: the recessive bits of a precedence field are among its nine. -/
theorem mem_recessiveBits {own i : Nat} : i ∈ recessiveBits own ↔ i < 9 ∧ own.testBit (8 - i) = true := by
  simp [recessiveBits]

/-- R158: the lost bit is recessive in the sender's precedence, dominant in the winner's, and no earlier bit is both. -/
theorem lostBit_spec {own won j : Nat} (h : lostBit own won = some j) :
    j < 9 ∧ own.testBit (8 - j) = true ∧ won.testBit (8 - j) = false ∧
      ∀ i < j, own.testBit (8 - i) = true → won.testBit (8 - i) = true := by
  have hm := mem_recessiveBits.1 (List.mem_of_find?_eq_some h)
  have hw := List.find?_some h
  refine ⟨hm.1, hm.2, by simpa using hw, fun i hi ho => ?_⟩
  rw [lostBit, recessiveBits, List.find?_filter, List.find?_range_eq_some] at h
  have := h.2.2 i hi
  simpa [ho] using this

/-- R158: a sender whose precedence the winner's is below has a bit at which it lost the line. -/
theorem lostBit_isSome {own won : Nat} (h : won < own) (h9 : own < 512) : ∃ j, lostBit own won = some j := by
  rw [← Option.isSome_iff_exists, lostBit, List.find?_isSome]
  by_contra hn
  have hle : own ≤ won := by
    have e : own &&& won = own := by
      refine Nat.eq_of_testBit_eq fun i => ?_
      rw [Nat.testBit_and]
      cases hi : own.testBit i
      · rfl
      · have hi9 : i < 9 := by
          by_contra hge
          rw [Nat.testBit_lt_two_pow (lt_of_lt_of_le h9 (Nat.pow_le_pow_right Nat.two_pos (Nat.le_of_not_lt hge)))] at hi
          cases hi
        cases hw : won.testBit i
        · exact absurd ⟨8 - i, mem_recessiveBits.2 ⟨by omega, by rwa [show 8 - (8 - i) = i by omega]⟩,
            by rw [show 8 - (8 - i) = i by omega, hw]; rfl⟩ hn
        · rfl
    exact e ▸ Nat.and_le_right
  omega

/-! ### Reports -/

/-- R172: an admitted report stands at the tail. -/
theorem report_admitted {r : Report} {s : State} (h : admits r s = true) :
    report r s = { s with host := { s.host with outbound := s.host.outbound ++ [⟨r, false⟩] } } := by
  simp [report, h]

/-- R172: a report that is not admitted is counted. -/
theorem report_dropped {r : Report} {s : State} (h : admits r s = false) :
    report r s = { s with host := { s.host with dropped := bump16 s.host.dropped } } := by
  simp [report, h]

/-- R172: a report changes the outbound queue or the dropped-report count, and nothing else. -/
theorem report_cases (r : Report) (s : State) :
    (admits r s = true ∧ report r s = { s with host := { s.host with outbound := s.host.outbound ++ [⟨r, false⟩] } }) ∨
    (admits r s = false ∧ report r s = { s with host := { s.host with dropped := bump16 s.host.dropped } }) := by
  cases h : admits r s
  · exact .inr ⟨rfl, report_dropped h⟩
  · exact .inl ⟨rfl, report_admitted h⟩

/-- R172: the test an admitted report has passed, in figures. -/
theorem admits_iff (r : Report) (s : State) :
    admits r s = true ↔ s.host.outbound.length < 18 ∧ heldBytes s.host.outbound + r.size ≤ 672 := by
  simp [admits]

/-- The bytes of a queue with one frame more. -/
@[simp] theorem heldBytes_append_one (q : List Outbound) (f : Outbound) :
    heldBytes (q ++ [f]) = heldBytes q + f.report.size := by
  simp [heldBytes]

/-- R172: several reports change the host link alone. -/
theorem reports_only_host (rs : List Report) (s : State) : reports rs s = { s with host := (reports rs s).host } := by
  induction rs generalizing s with
  | nil => rfl
  | cons r rest ih =>
    have h := ih (report r s)
    simp only [reports, List.foldl_cons] at h ⊢
    rw [h]
    rcases report_cases r s with ⟨-, e⟩ | ⟨-, e⟩ <;> simp [e]

/-- R71, R172: an order frame changes the outbound queue to the one it leads to, or nothing. -/
theorem orderFrame_cases (r : Report) (s : State) :
    orderFrame r s = { s with host := { s.host with outbound := withOrderFrame r s.host.outbound } } ∨
      orderFrame r s = s := by
  unfold orderFrame
  simp only
  split
  · exact .inl rfl
  · exact .inr rfl

/-! ### Store writes -/

/-- R183: the write queue after a change to a place. -/
theorem queueWrite_queue (p : StorePlace) (s : State) :
    (queueWrite p s).store.queue = if p ∈ s.store.queue then s.store.queue else s.store.queue ++ [p] := by
  unfold queueWrite
  split <;> rfl

/-- R183: each place has at most one pending entry. -/
theorem queueWrite_nodup {p : StorePlace} {s : State} (h : s.store.queue.Nodup) :
    (queueWrite p s).store.queue.Nodup := by
  rw [queueWrite_queue]
  split
  · exact h
  · next hp => exact List.nodup_append.mpr ⟨h, by simp, by
      intro a ha b hb e
      simp only [List.mem_singleton] at hb
      exact hp (hb ▸ e ▸ ha)⟩

/-- R183: an entry goes out when no write is in flight and one is pending; otherwise nothing changes. -/
theorem launchWrite_cases (s : State) :
    (launchWrite s = s ∧ (s.store.inFlight.isSome = true ∨ s.store.queue = [])) ∨
    ∃ p rest, s.store.inFlight = none ∧ s.store.queue = p :: rest ∧
      launchWrite s =
        { s with store := { s.store with queue := rest, inFlight := some ⟨p, placeBytes s p, writeTime p⟩ } } := by
  unfold launchWrite
  split
  · next p rest h1 h2 => exact .inr ⟨p, rest, h1, h2, rfl⟩
  · next h =>
    refine .inl ⟨rfl, ?_⟩
    cases h1 : s.store.inFlight with
    | some w => exact .inl rfl
    | none =>
      cases h2 : s.store.queue with
      | nil => exact .inr rfl
      | cons p rest => exact absurd h2 (h p rest h1)

/-! ### Taking a command -/

/-- R171: a command that may be taken is taken whole. -/
theorem takeCommand_taken {straps : Nat} {c : Instr} {run : State → State} {s : State}
    (h : canTake straps c s = true) :
    takeCommand straps c run s = .next (launchWrite (run (popInbound s))) := by
  simp [takeCommand, h]

/-- R171: a command that may not be taken waits, and nothing changes. -/
theorem takeCommand_waits {straps : Nat} {c : Instr} {run : State → State} {s : State}
    (h : canTake straps c s = false) : takeCommand straps c run s = .next s := by
  simp [takeCommand, h]

/-- R171: the room test in figures. -/
theorem commandRoom_iff (s : State) :
    commandRoom s = true ↔ s.host.outbound.length ≤ 14 ∧ heldBytes s.host.outbound ≤ 424 := by
  unfold commandRoom generalFrames generalBytes
  simp only [Bool.and_eq_true, decide_eq_true_eq]
  omega

/-! ### Operations that recurse -/

/-- R141: in-use counts change the cost table alone. -/
theorem holdJobs_only_jobs (js : List Nat) (s : State) : holdJobs js s = { s with jobs := (holdJobs js s).jobs } := by
  induction js generalizing s with
  | nil => rfl
  | cons j rest ih =>
    have h := ih (mapJob j (fun r => { r with inUse := r.inUse + 1 }) s)
    simp only [holdJobs, List.foldl_cons] at h ⊢
    rw [h]
    rfl

/-- R141: in-use counts change the cost table alone. -/
theorem releaseJobs_only_jobs (js : List Nat) (s : State) :
    releaseJobs js s = { s with jobs := (releaseJobs js s).jobs } := by
  induction js generalizing s with
  | nil => rfl
  | cons j rest ih =>
    have h := ih (mapJob j (fun r => { r with inUse := r.inUse - 1 }) s)
    simp only [releaseJobs, List.foldl_cons] at h ⊢
    rw [h]
    rfl

/-- R10: an eviction run changes the register and the store alone. -/
theorem evictUntil_frame (n fuel : Nat) (s : State) :
    evictUntil n fuel s =
      { s with register := (evictUntil n fuel s).register, store := (evictUntil n fuel s).store } := by
  induction fuel generalizing s with
  | zero => rfl
  | succ k ih =>
    unfold evictUntil
    split
    · rfl
    · split
      · next r h => rw [ih (removeSlab r.id s)]; simp
      · rfl

/-- R25, R28, R162: a POLL handed changes the host link, the floor line, the claim table and, where it ends the entry,
what its result tells. -/
theorem handPoll_frame (fuel handle : Nat) (s : State) :
    (handPoll fuel handle s).pending = s.pending ∧ (handPoll fuel handle s).station = s.station ∧
    (handPoll fuel handle s).settings = s.settings ∧ (handPoll fuel handle s).peers = s.peers ∧
    (handPoll fuel handle s).staged = s.staged ∧ (handPoll fuel handle s).active = s.active ∧
    (handPoll fuel handle s).charge = s.charge ∧ (handPoll fuel handle s).water = s.water ∧
    (handPoll fuel handle s).jobs = s.jobs ∧ (handPoll fuel handle s).store = s.store ∧
    (handPoll fuel handle s).freeUses = s.freeUses := by
  induction fuel generalizing s with
  | zero => simp [handPoll]
  | succ k ih =>
    unfold handPoll
    split
    · simp
    · next e _ =>
      simp only
      split
      · simp
      · next f d _ =>
        split
        · split
          · simp [ih]
          · simp
        · simp

/-- R145 to R149: a posting changes the cost table, the store's write queue and the reports alone. -/
theorem postJob_frame (j : Nat) (f : JobRecord → JobRecord) (s : State) :
    postJob j f s = { s with host := (postJob j f s).host, jobs := (postJob j f s).jobs, store := (postJob j f s).store }
    := by
  unfold postJob
  split
  · rfl
  · next old h =>
    simp only
    split <;> split <;> ext <;> simp

/-! ### A write that did not complete -/

/-- R179: a spoilt copy keeps its length. -/
theorem spoilt_length (bs : List Byte) : (spoilt bs).length = bs.length := by
  unfold spoilt; split <;> simp

/-- A byte with its low bit flipped is another byte. -/
theorem byte_flip_toNat (b : Byte) : (b ^^^ 1#8).toNat ≠ b.toNat := by
  revert b; decide

/-- R179: a spoilt copy fails its check. -/
theorem goodCheck_spoilt (bs : List Byte) : goodCheck (spoilt bs) = false := by
  unfold spoilt
  split
  · next h =>
    simp only [goodCheck, Bool.and_eq_true, decide_eq_true_eq, beq_iff_eq] at h
    obtain ⟨hl, hc⟩ := h
    have ht : (bs.modify (bs.length - 1) (· ^^^ 1#8)).take (bs.length - 2) = bs.take (bs.length - 2) := by
      apply List.ext_getElem
      · simp
      · intro i h1 h2
        simp only [List.getElem_take, List.getElem_modify]
        simp at h1
        split
        · omega
        · rfl
    have h1 : bs.length - 2 + 1 = bs.length - 1 := by omega
    have h2 : ¬ (bs.length - 1 = bs.length - 2) := by omega
    have h3 : bs.length - 1 < bs.length := by omega
    have h4 : bs.length - 2 < bs.length := by omega
    have := byte_flip_toNat bs[bs.length - 1]
    simp only [goodCheck, List.length_modify, Bool.and_eq_false_iff, beq_eq_false_iff_ne, ht, hc]
    right
    simp [u16At, byteAt, List.getD_eq_getElem?_getD, h1, h2, h3, h4]
    simpa using this.symm
  · next h => simpa using h

/-- R21, R150, R179: what a write that did not complete leaves: the copy before, its own bytes, or a copy of its length
whose check fails. -/
theorem leftBytes_cases (use : Nat) (before written : List Byte) :
    leftBytes use before written = before ∨ leftBytes use before written = written ∨
      ((leftBytes use before written).length = written.length ∧
        goodCheck (leftBytes use before written) = false) := by
  unfold leftBytes
  split
  · exact .inl rfl
  · exact .inr (.inl rfl)
  · exact .inr (.inr ⟨by simp [spoilt_length], goodCheck_spoilt _⟩)

/-! ### Validation and the transmit queue -/

/-- R50: a check over a list finds no failure exactly when no item, under its own index, fails. -/
theorem firstFailure_eq_none {α β : Type} (check : Nat → α → Option β) (n : Nat) (l : List α) :
    firstFailure check n l = none ↔ ∀ i (h : i < l.length), check (n + i) l[i] = none := by
  induction l generalizing n with
  | nil => simp [firstFailure]
  | cons a l ih =>
    simp only [firstFailure]
    cases h : check n a with
    | some b => simpa using ⟨0, by simp, by simp [h]⟩
    | none =>
      simp only [ih, List.length_cons]
      constructor
      · rintro hl (_ | i) hi
        · exact h
        · rw [List.getElem_cons_succ, show n + (i + 1) = n + 1 + i by omega]
          exact hl i (by omega)
      · intro hl i hi
        have := hl (i + 1) (by omega)
        rwa [List.getElem_cons_succ, show n + (i + 1) = n + 1 + i by omega] at this

/-- R113: making one of two waiting DEMANDs adds no entry to the queue. -/
theorem oneDemand_length_le (q : List TxEntry) : (oneDemand q).length ≤ q.length := by
  unfold oneDemand
  split
  · simpa using List.length_erase_le
  · exact Nat.le_refl _

end Sys2Proof.Machine
end

