-- ==== Sys2Proof/Laws/PerInstr.lean ====
section
/-! SUPPORT. Per-command lemmas: how a command is carried. A command reaches the part as a host frame, as a notice on the
floor line, or as neither (an event on a pin, a timer); the notice of a well-formed command keeps the line's limits (R154,
R155). -/

namespace Sys2Proof.Laws

open Sys2Proof Sys2Proof.Machine

/-- A well-formed command is spelt by a host frame or by a notice, never by both; its notice has a kind 1..7, a sender 0..30
and the length of its body, at most 60 bytes. -/
def Carried.Statement (i : Instr) : Prop :=
  i.wellFormed = true → (encodeCommand i = none ∨ encodeNotice i = none) ∧
    ∀ n, encodeNotice i = some n →
      1 ≤ n.kind ∧ n.kind ≤ 7 ∧ n.station ≤ 30 ∧ n.length = n.body.length ∧ n.length ≤ 60

/-- A command with no notice. -/
theorem carried_of_no_notice {i : Instr} (h : encodeNotice i = none) : Carried.Statement i := by
  intro _; simp [h]

/-- The defects of a notice take eight bytes each. -/
theorem length_defects (ds : List Defect) : (ds.flatMap Defect.bytes).length = 8 * ds.length := by
  induction ds with
  | nil => rfl
  | cons d ds ih => rw [List.flatMap_cons, List.length_append, ih]; simp [Defect.bytes, le16]; omega

theorem Carried.pinReset (straps : Nat) : Carried.Statement (.pinReset straps) := carried_of_no_notice rfl

theorem Carried.transactionStart : Carried.Statement .transactionStart := carried_of_no_notice rfl

theorem Carried.inboundFrame (kind : Nat) (body : List Byte) (taken : Nat) :
    Carried.Statement (.inboundFrame kind body taken) :=
  carried_of_no_notice rfl

theorem Carried.malformedFrame : Carried.Statement .malformedFrame := carried_of_no_notice rfl

theorem Carried.selectInactive (cut : CutFrame) :
    Carried.Statement (.selectInactive cut) :=
  carried_of_no_notice rfl

theorem Carried.outboundFrameRead : Carried.Statement .outboundFrameRead := carried_of_no_notice rfl

theorem Carried.enterSlab (cls thickness width height price : Nat) (defects : List Defect) :
    Carried.Statement (.enterSlab cls thickness width height price defects) :=
  carried_of_no_notice rfl

theorem Carried.readSlab (slab : Nat) : Carried.Statement (.readSlab slab) := carried_of_no_notice rfl

theorem Carried.listSlabs (start : Nat) : Carried.Statement (.listSlabs start) := carried_of_no_notice rfl

theorem Carried.take (slab job : Nat) : Carried.Statement (.take slab job) := carried_of_no_notice rfl

theorem Carried.give (slab : Nat) : Carried.Statement (.give slab) := carried_of_no_notice rfl

theorem Carried.planHead (plan slab : Nat) :
    Carried.Statement (.planHead plan slab) :=
  carried_of_no_notice rfl

theorem Carried.planPieces (pieces : List PieceEntry) :
    Carried.Statement (.planPieces pieces) :=
  carried_of_no_notice rfl

theorem Carried.planRemnants (remnants : List Rect) :
    Carried.Statement (.planRemnants remnants) :=
  carried_of_no_notice rfl

theorem Carried.planSegments (segments : List SegmentEntry) :
    Carried.Statement (.planSegments segments) :=
  carried_of_no_notice rfl

theorem Carried.planEnd : Carried.Statement .planEnd := carried_of_no_notice rfl

theorem Carried.dropPlan : Carried.Statement .dropPlan := carried_of_no_notice rfl

theorem Carried.startPlan : Carried.Statement .startPlan := carried_of_no_notice rfl

theorem Carried.abortPlan : Carried.Statement .abortPlan := carried_of_no_notice rfl

theorem Carried.continuePlan : Carried.Statement .continuePlan := carried_of_no_notice rfl

theorem Carried.segmentDone (tag length time : Nat) :
    Carried.Statement (.segmentDone tag length time) :=
  carried_of_no_notice rfl

theorem Carried.segmentPaused (tag length time : Nat) :
    Carried.Statement (.segmentPaused tag length time) :=
  carried_of_no_notice rfl

theorem Carried.segmentFault (tag cause length time : Nat) :
    Carried.Statement (.segmentFault tag cause length time) :=
  carried_of_no_notice rfl

theorem Carried.closeSlab (slab mode job : Nat) :
    Carried.Statement (.closeSlab slab mode job) :=
  carried_of_no_notice rfl

theorem Carried.openJob (job : Nat) (estimate : Option Nat) :
    Carried.Statement (.openJob job estimate) :=
  carried_of_no_notice rfl

theorem Carried.closeJob (job : Nat) : Carried.Statement (.closeJob job) := carried_of_no_notice rfl

theorem Carried.freeJob (job : Nat) : Carried.Statement (.freeJob job) := carried_of_no_notice rfl

theorem Carried.readJob (job : Nat) : Carried.Statement (.readJob job) := carried_of_no_notice rfl

theorem Carried.purgeNow : Carried.Statement .purgeNow := carried_of_no_notice rfl

theorem Carried.join : Carried.Statement .join := carried_of_no_notice rfl

theorem Carried.readStation : Carried.Statement .readStation := carried_of_no_notice rfl

theorem Carried.readPeers : Carried.Statement .readPeers := carried_of_no_notice rfl

theorem Carried.setStation (first second number : Nat) :
    Carried.Statement (.setStation first second number) :=
  carried_of_no_notice rfl

theorem Carried.writeConfig (fields : ConfigFields) :
    Carried.Statement (.writeConfig fields) :=
  carried_of_no_notice rfl

theorem Carried.writeCalibration (kRecycled kFresh : Nat) :
    Carried.Statement (.writeCalibration kRecycled kFresh) :=
  carried_of_no_notice rfl

theorem Carried.storeErase : Carried.Statement .storeErase := carried_of_no_notice rfl

theorem Carried.restart (straps : Nat) : Carried.Statement (.restart straps) := carried_of_no_notice rfl

theorem Carried.pollReceived (station resource : Nat) :
    Carried.Statement (.pollReceived station resource) := by
  intro h
  refine ⟨.inl rfl, fun n hn => ?_⟩
  simp only [encodeNotice, Option.some.injEq] at hn
  subst hn
  simp only [Instr.wellFormed, isSender, Bool.and_eq_true, decide_eq_true_eq] at h
  simp [le16]
  omega

theorem Carried.claimReceived (station resource job : Nat) :
    Carried.Statement (.claimReceived station resource job) := by
  intro h
  refine ⟨.inl rfl, fun n hn => ?_⟩
  simp only [encodeNotice, Option.some.injEq] at hn
  subst hn
  simp only [Instr.wellFormed, isSender, Bool.and_eq_true, decide_eq_true_eq] at h
  simp [le16]
  omega

theorem Carried.releaseReceived (station resource : Nat) :
    Carried.Statement (.releaseReceived station resource) := by
  intro h
  refine ⟨.inl rfl, fun n hn => ?_⟩
  simp only [encodeNotice, Option.some.injEq] at hn
  subst hn
  simp only [Instr.wellFormed, isSender, Bool.and_eq_true, decide_eq_true_eq] at h
  simp [le16]
  omega

theorem Carried.demandReceived (station demand : Nat) :
    Carried.Statement (.demandReceived station demand) := by
  intro h
  refine ⟨.inl rfl, fun n hn => ?_⟩
  simp only [encodeNotice, Option.some.injEq] at hn
  subst hn
  simp only [Instr.wellFormed, isSender, Bool.and_eq_true, decide_eq_true_eq] at h
  simp
  omega

theorem Carried.retireReceived (station slab reason : Nat) :
    Carried.Statement (.retireReceived station slab reason) := by
  intro h
  refine ⟨.inl rfl, fun n hn => ?_⟩
  simp only [encodeNotice, Option.some.injEq] at hn
  subst hn
  simp only [Instr.wellFormed, isSender, Bool.and_eq_true, decide_eq_true_eq] at h
  simp [le16]
  omega

theorem Carried.slabReceived (station slab : Nat) (contents : SlabContents) :
    Carried.Statement (.slabReceived station slab contents) := by
  intro h
  refine ⟨.inl rfl, fun n hn => ?_⟩
  simp only [encodeNotice, Option.some.injEq] at hn
  subst hn
  simp only [Instr.wellFormed, SlabContents.wellFormed, isSender, Bool.and_eq_true, decide_eq_true_eq] at h
  have hl : (contentsBytes slab contents).length = 12 + 8 * contents.defects.length := by
    rw [contentsBytes, List.length_append, length_defects]; simp [le16]
  dsimp only
  omega

theorem Carried.helloReceived (station supply rate press : Nat) :
    Carried.Statement (.helloReceived station supply rate press) := by
  intro h
  refine ⟨.inl rfl, fun n hn => ?_⟩
  simp only [encodeNotice, Option.some.injEq] at hn
  subst hn
  simp only [Instr.wellFormed, isSender, Bool.and_eq_true, decide_eq_true_eq] at h
  simp [le16]
  omega

theorem Carried.checkError (kind station resource : Nat) :
    Carried.Statement (.checkError kind station resource) :=
  carried_of_no_notice rfl

theorem Carried.formatError (kind station resource : Nat) :
    Carried.Statement (.formatError kind station resource) :=
  carried_of_no_notice rfl

theorem Carried.lossOfStep : Carried.Statement .lossOfStep := carried_of_no_notice rfl

theorem Carried.stuckLine : Carried.Statement .stuckLine := carried_of_no_notice rfl

theorem Carried.receiverResync : Carried.Statement .receiverResync := carried_of_no_notice rfl

theorem Carried.transmitAttempt : Carried.Statement .transmitAttempt := carried_of_no_notice rfl

theorem Carried.attemptAbandoned : Carried.Statement .attemptAbandoned := carried_of_no_notice rfl

theorem Carried.noticeSent : Carried.Statement .noticeSent := carried_of_no_notice rfl

theorem Carried.ownPollWindow (slots : BitVec 32) :
    Carried.Statement (.ownPollWindow slots) :=
  carried_of_no_notice rfl

theorem Carried.settleTimerExpiry (resource : Nat) :
    Carried.Statement (.settleTimerExpiry resource) :=
  carried_of_no_notice rfl

theorem Carried.listenInExpiry : Carried.Statement .listenInExpiry := carried_of_no_notice rfl

theorem Carried.announceTimerExpiry : Carried.Statement .announceTimerExpiry := carried_of_no_notice rfl

theorem Carried.demandRefreshExpiry : Carried.Statement .demandRefreshExpiry := carried_of_no_notice rfl

theorem Carried.resumeDwellExpiry : Carried.Statement .resumeDwellExpiry := carried_of_no_notice rfl

theorem Carried.overrunExpiry : Carried.Statement .overrunExpiry := carried_of_no_notice rfl

theorem Carried.stopWaitExpiry : Carried.Statement .stopWaitExpiry := carried_of_no_notice rfl

theorem Carried.purgeTimerExpiry : Carried.Statement .purgeTimerExpiry := carried_of_no_notice rfl

theorem Carried.retryTimerExpiry : Carried.Statement .retryTimerExpiry := carried_of_no_notice rfl

theorem Carried.peerLapse (station : Nat) : Carried.Statement (.peerLapse station) := carried_of_no_notice rfl

theorem Carried.peerAbsent (station : Nat) :
    Carried.Statement (.peerAbsent station) :=
  carried_of_no_notice rfl

theorem Carried.meterPulse (meter : Meter) : Carried.Statement (.meterPulse meter) := carried_of_no_notice rfl

theorem Carried.pressDone : Carried.Statement .pressDone := carried_of_no_notice rfl

theorem Carried.storeWriteDone : Carried.Statement .storeWriteDone := carried_of_no_notice rfl

theorem Carried.storeWriteTimeout : Carried.Statement .storeWriteTimeout := carried_of_no_notice rfl

theorem Carried.startUpEnd : Carried.Statement .startUpEnd := carried_of_no_notice rfl

theorem Carried.readMarker : Carried.Statement .readMarker := carried_of_no_notice rfl

theorem Carried.frameReadBegun : Carried.Statement .frameReadBegun := carried_of_no_notice rfl

end Sys2Proof.Laws
end

