-- ==== Sys2Proof/Tests/Slice0.lean ====
section
/-! SUPPORT. Tests: ill-formed commands refused by `Instr.wellFormed`; a witness for the hypotheses of each statement of
Certificates/Slice0/Obligations.lean (test_<statement>_<clause>); and steps whose results the handbook works out. -/

namespace Sys2Proof.Tests

open Sys2Proof Sys2Proof.Machine Sys2Proof.Safety

-- One theorem after the other: each `decide +kernel` waits for the kernel, and a hundred waiting at once are a hundred threads.
set_option Elab.async false

/-! ### Small states -/

/-- Settings within their ranges, most of them those of the worked sequences of 04 and 05. -/
def config : ConfigFields :=
  { Settings.initial.cfg with
    supply := 100, f0 := 3000, fmin := 300, fmax := 4500, overcut := 2, kerf := 4
    hardness := [100, 100, 140, 100, 100, 100, 100, 100], qnom := 40, qmin := 20, machineRate := 4800
    priceRecycled := 150, priceFresh := 400, priceWear := 3, priceDisposal := 40, margin := 20, guard := 10
    threshold := 40000, hardLimit := 60000, press := 1, purgeTime := 300 }

/-- Station 6 with those settings, INERT. -/
def inert : State :=
  { State.reset with station := ⟨6, none⟩, settings := ⟨config, 20, 20, false, false⟩ }

/-- Station 6, ACTIVE and in step. -/
def active : State := { inert with floor := { Floor.reset with attach := .active, inStep := true } }

/-- A slab with one fissure. -/
def stone : SlabContents := ⟨2, 20, 3000, 2000, 9000, none, [⟨.fissure, 1500, 100, 10, 40⟩]⟩

/-- The slab the plan is on, this station's first. -/
def slabA : SlabRecord := ⟨12289, stone, .stock, none, 3⟩

/-- Another, left open by an abort. -/
def slabB : SlabRecord := ⟨12290, stone, .cutOpen, none, 4⟩

/-- One of station 3's, retired. -/
def slabC : SlabRecord := ⟨6149, stone, .gone, some 3, 1⟩

/-- One of station 3's, in stock. -/
def slabD : SlabRecord := ⟨6151, stone, .stock, none, 2⟩

/-- A job with an estimate, and a closed one. -/
def jobs : List (Option JobRecord) :=
  let open' : JobRecord :=
    { number := 501, closed := false, estimate := some 100, inUse := 0, segments := 0, inStone := 0, time := 0
      recycled := 0, fresh := 0, wear := 0, solids := 0, area := 0, machine := 0, water := 0, wearCents := 0
      disposal := 0, material := 0, total := 0, overEstimate := false, saturated := false, damaged := false }
  [some open', some { open' with number := 502, closed := true }] ++ List.replicate 22 none

/-- Four slabs, two jobs, the claims of slabs A and B held. -/
def stocked : State :=
  { active with
    register := { Register.reset with
      places := [some slabA, some slabB, some slabC, some slabD] ++ List.replicate 60 none, serial := 3, heard := 4 }
    claims := ⟨[⟨0, 12289, .slab 501, .held, 2, .done, none⟩, ⟨1, 12290, .slab 501, .held, 2, .done, none⟩], 0, 2⟩
    jobs := jobs, sump := { Sump.reset with volume := 5000 } }

/-- A RIP just below the one piece, then a CROSS beside it. -/
def segments : List Segment :=
  [⟨.rip, ⟨-100, 198⟩, ⟨3100, 198⟩, none, false, 0⟩, ⟨.cross, ⟨1102, -100⟩, ⟨1102, 2100⟩, none, false, 0⟩]

/-- A plan that passes every check. -/
def plan : Plan := ⟨3107, 12289, [⟨501, ⟨100, 200, 1000, 800⟩⟩], [⟨1200, 1100, 500, 500⟩], segments, none, 0⟩

/-- The plan with its estimate and reservation. -/
def validPlan : Plan := { plan with estimate := some (estimateOf config stone plan), reservations := 1 }

/-- The plan VALID in the staged slot. -/
def staged : State :=
  { stocked with staged := .valid validPlan, register := { stocked.register with reservations := 1 } }

/-- The order of the plan's first segment. -/
def order : Order := ⟨1, .new, 0, ⟨-100, 198⟩, ⟨3100, 198⟩, 3200, 22, 986, 1948, 40, false, false⟩

/-- The plan RUNNING with that order in flight. -/
def running : State :=
  { stocked with
    register := { stocked.register with
      places := stocked.register.places.set 0 (some { slabA with state := .cutting }), reservations := 1 }
    active := { Active.reset with
      state := .running, plan := validPlan, order := some order, tag := 1, overrun := some 424400
      faultCounts := [0, 0], charged := [false, false] }
    water := { Water.reset with own := 40, sigma := 40, allotment := 40, effective := 40, segRecycled := 100 } }

/-- The record of a fault that paused the plan. -/
def fault : FaultRecord := ⟨.fault, .operatorStop, none, 3107, 0, .new, ⟨500, 198⟩, .machine⟩

/-- The plan in another state of the active slot. -/
def inState (st : ActiveState) (o : Option Order) (p : Pending) (r : Option FaultRecord) : State :=
  { running with active := { running.active with
      state := st, order := o, overrun := none, stopWait := o.map fun _ => 10000, pending := p, fault := r } }

/-- The frame of a command alone in the inbound queue. -/
def asked (c : Instr) (s : State) : State :=
  { s with host := { s.host with inbound := ((encodeCommand c).map fun f => Inbound.frame f.1 f.2).toList } }

/-- A transmit queue entry with no owner. -/
def entry (n : Notice) (age : Nat) (sending : Bool) : TxEntry := ⟨n, none, 0, age, sending, false⟩

/-- A state with a transmit queue. -/
def queued (q : List TxEntry) (s : State) : State := { s with floor := { s.floor with queue := q, nextAge := 100 } }

/-- Sixteen DEMANDs and HELLOs that wait. -/
def fullQueue : List TxEntry :=
  (List.range 8).map (fun i => entry (.demand 40) i false) ++ (List.range 8).map fun i => entry (.hello 100 0 1) (8 + i) false

/-! ### Ill-formed commands are refused -/

theorem test_wellFormed_straps : (Instr.pinReset 32).wellFormed = false ∧ (Instr.restart 32).wellFormed = false := by
  decide

theorem test_wellFormed_frame :
    (Instr.inboundFrame 0 [] 0).wellFormed = false ∧ (Instr.inboundFrame 256 [] 0).wellFormed = false ∧
      (Instr.inboundFrame 1 (List.replicate 256 0) 0).wellFormed = false ∧
      (Instr.inboundFrame 1 [] 13).wellFormed = false ∧ (CutFrame.afterLength 0 4 0 0).wellFormed = false ∧
      (CutFrame.afterLength 4 256 0 0).wellFormed = false ∧ (CutFrame.afterLength 4 4 13 0).wellFormed = false ∧
      (CutFrame.afterLength 4 4 0 4).wellFormed = false ∧
      (CutFrame.reading 0).wellFormed = false ∧ (CutFrame.reading 62).wellFormed = false := by
  decide +kernel

theorem test_wellFormed_slab :
    (Instr.enterSlab 256 20 3000 2000 9000 []).wellFormed = false ∧
      (Instr.enterSlab 2 20 65536 2000 9000 []).wellFormed = false ∧
      (Instr.enterSlab 2 20 3000 2000 9000 (List.replicate 7 ⟨.void, 0, 0, 1, 1⟩)).wellFormed = false ∧
      (Instr.enterSlab 2 20 3000 2000 9000 [⟨.void, 32768, 0, 1, 1⟩]).wellFormed = false ∧
      (Instr.readSlab 65536).wellFormed = false ∧ (Instr.listSlabs 65536).wellFormed = false := by decide

theorem test_wellFormed_claim :
    (Instr.take 12289 65536).wellFormed = false ∧ (Instr.give 65536).wellFormed = false ∧
      (Instr.closeSlab 12289 256 501).wellFormed = false := by decide

theorem test_wellFormed_plan :
    (Instr.planHead 65536 12289).wellFormed = false ∧
      (Instr.planPieces (List.replicate 6 ⟨501, ⟨0, 0, 1, 1⟩⟩)).wellFormed = false ∧
      (Instr.planRemnants [⟨0, 0, 65536, 300⟩]).wellFormed = false ∧
      (Instr.planSegments [⟨-32769, 0, 0, 0, 0, 0⟩]).wellFormed = false ∧
      (Instr.planSegments [⟨0, 0, 0, 0, 256, 0⟩]).wellFormed = false := by decide

theorem test_wellFormed_report :
    (Instr.segmentDone 256 0 0).wellFormed = false ∧ (Instr.segmentPaused 0 65536 0).wellFormed = false ∧
      (Instr.segmentFault 0 256 0 0).wellFormed = false := by decide

theorem test_wellFormed_job :
    (Instr.openJob 501 (some 4294967296)).wellFormed = false ∧ (Instr.closeJob 65536).wellFormed = false ∧
      (Instr.freeJob 65536).wellFormed = false ∧ (Instr.readJob 65536).wellFormed = false := by decide

theorem test_wellFormed_settings :
    (Instr.setStation 0xA6 0x3C 256).wellFormed = false ∧ (Instr.writeConfig { config with qnom := 256 }).wellFormed = false ∧
      (Instr.writeConfig { config with hardness := [100] }).wellFormed = false ∧
      (Instr.writeCalibration 256 20).wellFormed = false := by decide

theorem test_wellFormed_notice :
    (Instr.pollReceived 31 12289).wellFormed = false ∧ (Instr.claimReceived 3 65536 1).wellFormed = false ∧
      (Instr.releaseReceived 31 12289).wellFormed = false ∧ (Instr.demandReceived 3 256).wellFormed = false ∧
      (Instr.retireReceived 3 12289 256).wellFormed = false ∧
      (Instr.slabReceived 3 6149 { stone with cls := 8 }).wellFormed = false ∧
      (Instr.slabReceived 3 6149 { stone with parent := some 0 }).wellFormed = false ∧
      (Instr.helloReceived 3 65536 0 1).wellFormed = false ∧ (Instr.checkError 16 3 12289).wellFormed = false ∧
      (Instr.formatError 1 32 12289).wellFormed = false ∧ (Instr.settleTimerExpiry 65536).wellFormed = false ∧
      (Instr.peerLapse 31).wellFormed = false ∧ (Instr.peerAbsent 31).wellFormed = false := by decide

/-! ### Witnesses: the hypotheses of each statement are met -/

theorem test_StepRunsTheFrontCommand :
    { inert with pending := [.join, .readStation] }.pending = .join :: [.readStation] := by decide

theorem test_HostCommandRoundTrip :
    (Instr.planRemnants (List.replicate 7 ⟨0, 0, 300, 65535⟩)).wellFormed = true ∧
      (encodeCommand (.planRemnants (List.replicate 7 ⟨0, 0, 300, 65535⟩))).isSome = true ∧
      encodeCommand (.take 12289 501) = some (0x04, [0x01, 0x30, 0xF5, 0x01]) ∧
      decodeCommand 0 0x04 [0x01, 0x30, 0xF5, 0x01] = some (.take 12289 501) := by decide

theorem test_NoticeRoundTrip :
    (Instr.slabReceived 30 63487 stone).wellFormed = true ∧
      (encodeNotice (.slabReceived 30 63487 stone)).isSome = true ∧
      (Notice.slab 63487 { stone with defects := List.replicate 6 ⟨.void, 0, 0, 1, 1⟩ }).body.length = 60 := by decide +kernel

/-- 12: a DEMAND of 40 from station 6 on the line: start, kind 4, station 6, length 1, the body, the check. -/
theorem test_NoticeRoundTrip_bits :
    ((Notice.demand 40).lineBits 6).take 25 =
      [false, false, true, false, false, false, false, true, true, false, false, false, false, false, false, false, true,
        false, false, true, false, true, false, false, false] ∧ ((Notice.demand 40).lineBits 6).length = 41 := by
  decide +kernel

theorem test_StoredRecordsComeBack :
    isSlabId 63487 = true ∧ contentsInRange 0 { stone with defects := List.replicate 6 ⟨.void, 3000, 2000, 0, 0⟩ } = true ∧
      isJobNumber 65535 = true ∧
      (∀ o ∈ jobs, ∀ j ∈ o, (∀ n ∈ j.counts, n ≤ max32) ∧ ∀ e ∈ j.estimate, e ≤ max32) := by decide +kernel

theorem test_WrittenSettingsAreReadClamped :
    { config with fmin := 65535 }.wellFormed = true ∧
      ((settingsOf [1, 2, 2, 100, 0, 9, 0, 100, 0] []).cfg.rate, (settingsOf [1, 2, 2, 100, 0, 9, 0, 100, 0] []).cfg.supply) =
        (2, 100) ∧
      ((settingsOf [2, 1, 0, 100, 0, 9, 0, 50, 0] []).cfg.rate, (settingsOf [2, 1, 0, 100, 0, 9, 0, 50, 0] []).cfg.supply) =
        (0, 10) ∧
      (configPlaceBytes config ++ [0]).take 52 = (configPlaceBytes config).take 52 ∧
      goodCheck (configPlaceBytes config ++ [0]) = false := by decide +kernel

/-- A station that hears a JOIN with every table and queue within its limits. -/
def joining : State := { asked .join inert with pending := [.join] }

/-- A running plan with its SEGMENT ORDER and a FEED UPDATE unread, a DEMAND being sent and a newer one waiting. -/
def busy : State := queued [entry (.demand 40) 1 true, entry (.demand 20) 2 false, entry (.hello 100 0 1) 0 false]
  { running with host := { running.host with
      outbound := [⟨.segmentOrder order false, false⟩, ⟨.feedUpdate 1 0 1948 40, false⟩] }, pending := [.lossOfStep] }

theorem test_StepKeepsQueueLimits :
    queuesBounded joining ∧ queuesBounded (queued fullQueue (asked (.give 12289) stocked)) ∧
      (∃ t, step joining = .next t) ∧ orderFits busy ∧ orderFramesWait busy ∧ transmitOrdered busy ∧
      ∃ t, step busy = .next t := by
  refine ⟨by decide +kernel, by decide +kernel, ⟨_, rfl⟩, ?_, ?_, ?_, _, rfl⟩
  · simp [orderFits, busy, queued, running, order, Active.reset]
  · refine ⟨by decide +kernel, ?_, by decide +kernel, by decide +kernel⟩
    intro r hr
    refine ⟨order, rfl, ?_⟩
    revert r
    decide +kernel
  · unfold transmitOrdered
    decide +kernel

theorem test_StepKeepsTheTablesSound :
    tablesSized stocked ∧ slabsDistinct stocked ∧ placesWithin stocked ∧ ∃ t, step stocked = .next t := by
  refine ⟨by decide +kernel, by decide +kernel, by decide +kernel, ?_⟩
  have h : dueCommands stocked = [] := by decide +kernel
  exact ⟨tick stocked, by unfold step idle chooseDue; rw [h]; rfl⟩

/-- A copy that holds no record asks nothing of its total. -/
theorem copies_hold (bytes : List Byte) (h : jobOfBytes bytes = none) : copyHolds bytes := by
  intro _ j hj; rw [h] at hj; cases hj

theorem test_StepKeepsJobsSound : jobsSound { stocked with pending := [.join] } := by
  refine ⟨by decide +kernel, ?_, fun b hb => copies_hold b (by revert b; decide +kernel), by simp [stocked, active, inert, State.reset, Store.initial]⟩
  intro j hj
  have h : ∀ o ∈ stocked.jobs, ∀ j ∈ o, (0 < j.inUse → j.closed = false) ∧ (∀ n ∈ j.counts, n ≤ max32) ∧
      j.total = min max32 (j.machine + j.water + j.wearCents + j.disposal + j.material) := by decide +kernel
  exact h _ hj j rfl

theorem test_StepKeepsClaimTable :
    claimsSound (asked (.take 6151 501) { stocked with pending := [.take 6151 501] }) ∧
      ∃ t, step (asked (.take 6151 501) { stocked with pending := [.take 6151 501] }) = .next t :=
  ⟨by decide +kernel, _, rfl⟩

theorem test_StepKeepsOneWriteAPlace :
    writesDistinct { stocked with pending := [.storeWriteDone], store := { Store.initial with queue := [.sump, .slab 63] } } ∧
      ∃ t, step { stocked with
        pending := [.storeWriteDone], store := { Store.initial with queue := [.sump, .slab 63] } } = .next t :=
  ⟨by decide +kernel, _, rfl⟩

theorem test_StepKeepsOrderWithItsPlan :
    orderFits { running with pending := [.overrunExpiry] } ∧
      orderFits (inState .ending (some { order with stopped := true }) Pending.none (some fault)) ∧
      orderFits (inState .aborted none Pending.none (some fault)) ∧
      orderFits (inState .paused none Pending.none (some fault)) ∧
      (∃ t, step { running with pending := [.overrunExpiry] } = .next t) ∧ tablesSized running ∧ slabsDistinct running ∧
      claimsSound running ∧ planHolds { running with pending := [.overrunExpiry] } := by
  refine ⟨by simp [orderFits, running, order, Active.reset], by simp [orderFits, inState], by simp [orderFits, inState],
    by simp [orderFits, inState], ⟨_, rfl⟩, by decide +kernel, by decide +kernel, by decide +kernel, ?_, ?_, by decide +kernel⟩
  · intro p hp; cases hp
  · intro _
    exact ⟨rfl, by decide, ⟨{ slabA with state := .cutting }, by decide +kernel, rfl⟩,
      ⟨⟨0, 12289, .slab 501, .held, 2, .done, none⟩, by decide +kernel, rfl⟩⟩

/-- A muted station with a running sweep. -/
def muted : State := { inert with
  floor := { Floor.reset with attach := .muted }, register := { Register.reset with sweep := some ⟨0, 100⟩ } }

/-- Driving the slot for slab A in a window, an attempt to come. -/
def answering : State := { queued [entry (.hello 100 0 1) 1 false] { stocked with pending := [.transmitAttempt] } with
  floor := { (queued [entry (.hello 100 0 1) 1 false] stocked).floor with drive := some ⟨12289, true, false⟩ } }

theorem test_MutedStationStaysSilent :
    mutedAndSilent muted ∧ isReset .announceTimerExpiry = false ∧ (∃ t, exec .announceTimerExpiry muted = .next t) ∧
      drivesInStep answering ∧ answering.floor.drive.isSome = true ∧ ∃ t, step answering = .next t :=
  ⟨by decide +kernel, rfl, ⟨_, rfl⟩, by decide +kernel, rfl, _, rfl⟩

/-- R156: a POLL of slab A is answered in step; an attempt is then begun and abandoned: the receiver is out of step, and from
then on, through a damaged POLL, no slot is driven. -/
theorem test_out_of_step_drives_no_slot :
    ∃ t u v w, exec (.pollReceived 3 12289) (queued [entry (.hello 100 0 1) 1 false] stocked) = .next t ∧
      t.floor.drive = some ⟨12289, true, false⟩ ∧ exec .transmitAttempt t = .next u ∧ exec .attemptAbandoned u = .next v ∧
      v.floor.inStep = false ∧ v.floor.drive = none ∧ exec (.checkError 1 3 12289) v = .next w ∧ w.floor.drive = none :=
  ⟨_, _, _, _, rfl, by decide +kernel, rfl, rfl, by decide +kernel, by decide +kernel, rfl, by decide +kernel⟩

theorem test_AttachStateMovesOnlySo :
    (∃ t, exec .join (asked .join inert) = .next t ∧ t.floor.attach = .listening) ∧
      (∃ t, exec (.pollReceived 6 12289) active = .next t ∧ t.floor.attach = .muted) :=
  ⟨⟨_, rfl, by decide +kernel⟩, ⟨_, rfl, by decide +kernel⟩⟩

theorem test_TagAdvancesOnceAnOrder :
    isReset .startPlan = false ∧ ∃ t, exec .startPlan (asked .startPlan staged) = .next t ∧
      t.active.order.any (·.tag == 1) = true := ⟨rfl, _, rfl, by decide +kernel⟩

theorem test_BaseFeedIsClampedQuotient :
    config.fmin ≤ config.fmax ∧ 50 ≤ hardnessOf config 2 ∧ hardnessOf config 2 ≤ 250 ∧
      baseFeed config 1 2 = config.fmax ∧ baseFeed config 92 2 = 465 ∧
      baseFeed { config with fmin := 2000 } 92 2 = 2000 := by decide

theorem test_FeedFollowsEffectiveWater :
    config.qmin ≤ config.qnom ∧ config.fmin ≤ 1948 ∧ 1948 ≤ config.fmax ∧
      feedLimit config 1948 40 = some 1948 ∧ feedLimit config 1948 39 = some 1899 ∧
      feedLimit config 1948 20 = some 974 ∧ feedLimit config 400 20 = some 300 ∧
      feedLimit config 1948 19 = none := by decide

theorem test_WearRoundsUpTheCut : hardnessOf config 0 = 100 ∧ wearUnits config 2 1 1 = 1 := by decide

/-- A running station that counts one present and one lapsed peer. -/
def sharing : State := { running with
  peers := [⟨.present, 60, some 2000, none, false⟩, ⟨.lapsed, 20, some 60000, none, false⟩] ++ List.replicate 29 Peer.absent }

theorem test_AllotmentSharesTheSupply :
    sharing.peers.length = 31 ∧ sharing.water.own ≤ 120 ∧ (∀ p ∈ sharing.peers, p.demand ≤ 255) ∧
      sharing.station.number = some 6 ∧ (waterFigures sharing).sigma = 120 ∧ (waterFigures sharing).allotment = 33 ∧
      allotmentOf 0 5 3 = 0 ∧ allotmentOf 5 7 7 = 5 ∧ allotmentOf 5 8 7 = 4 := by decide +kernel

theorem test_FreshDrawMakesUpTheShortfall :
    freshDraw { config with makeup := 1, freshLimit := 5 } 40 33 = 5 ∧
      freshDraw { config with makeup := 1, freshLimit := 7 } 40 33 = 7 ∧ freshDraw config 40 33 = 0 := by decide

theorem test_AreaSharesAddUpToTheSlab :
    plan.pieces ≠ [] ∧
      ((distinctJobs plan.pieces).map (jobArea plan.pieces)).sum + 2500 ≤ areaOf stone.width stone.height ∧
      ((distinctJobs [⟨501, ⟨0, 0, 1, 1⟩⟩, ⟨502, ⟨5, 5, 1, 1⟩⟩]).map
        (jobArea [⟨501, ⟨0, 0, 1, 1⟩⟩, ⟨502, ⟨5, 5, 1, 1⟩⟩])).sum = 0 := by decide

/-- A RESTART ready to be taken while a transaction is open. -/
def restarting : State := { inert with
  station := ⟨31, some 9⟩, host := { inert.host with phase := .read, inbound := [.frame 0x1F []] } }

theorem test_ResetsLeaveEveryBlockAtItsValues :
    atHead 31 (.restart 31) restarting ∧ roomToAnswer restarting ∧ restarting.store.inFlight = none ∧
      Instr.pinReset 0 = .pinReset 0 ∧
      { Store.initial with inFlight := some ⟨.config, [], 5⟩ }.inFlight = some ⟨.config, [], 5⟩ ∧
      { Store.initial with inFlight := some ⟨.slab 0, [], 5⟩ }.inFlight = some ⟨.slab 0, [], 5⟩ := by decide +kernel

/-- A store with a good copy of a sump account of 70,000 and of a serial counter at 300. -/
theorem test_StartUpRecoversTheStore_good :
    goodCheck (withCheck (le32 70000)) = true ∧ goodCheck (withCheck (le16 300)) = true := by decide +kernel

/-- A store with slab A stored CUTTING in place 0, a duplicate of it in place 1 and a bad copy in place 2; two job copies,
a duplicate of the first, and two bad copies of job 502. -/
def storedState : State := { inert with store := { Store.initial with
  slabs := [slabPlaceBytes (some { slabA with state := .cutting }), slabPlaceBytes (some slabA), [1]] ++
    List.replicate 61 (slabPlaceBytes none)
  jobs := [jobPlaceBytes (jobs.getD 0 none), [0xF6#8, 0x01#8] ++ List.replicate 63 0,
      [0xF6#8, 0x01#8] ++ List.replicate 63 1, jobPlaceBytes (jobs.getD 0 none)] ++
    List.replicate 20 (jobPlaceBytes none) } }

theorem test_StartUpRecoversTheStore :
    storedState.store.inFlight = none ∧ goodCheck (slabPlaceBytes (some { slabA with state := .cutting })) = true ∧
      (slabOfBytes (slabPlaceBytes (some { slabA with state := .cutting }))).map (·.id) = some 12289 ∧
      goodCheck (jobPlaceBytes (jobs.getD 0 none)) = true ∧
      (jobOfBytes (jobPlaceBytes (jobs.getD 0 none))).map (·.number) = some 501 ∧
      goodCheck ([0xF6#8, 0x01#8] ++ List.replicate 63 0) = false ∧
      u16At ([0xF6#8, 0x01#8] ++ List.replicate 63 0) 0 = 502 ∧
      slabBefore storedState.store.slabs 0 12289 = false ∧ slabBefore storedState.store.slabs 1 12289 = true ∧
      slabLeftOut storedState.store.slabs 2 = true ∧ jobBefore storedState.store.jobs 3 501 = true ∧
      jobBefore storedState.store.jobs 24 502 = false := by decide +kernel

/-- A transaction in a phase, with frames to read. -/
def inPhase (p : Phase) (frames : List Outbound) : State :=
  { active with host := { active.host with phase := p, outbound := frames } }

theorem test_TransactionsMoveTheHostLinkAlone :
    (inPhase .idle []).host.phase = .idle ∧ (inPhase .write []).host.phase = .write ∧
      (inPhase .write []).host.startingUp = false ∧ (inPhase .read []).host.phase = .read ∧
      (inPhase .read []).host.outbound = [] ∧
      (inPhase .read [⟨.refused 4 .range, false⟩]).host.outbound = ⟨.refused 4 .range, false⟩ :: [] ∧
      3 < 2 + (Report.refused 4 .range).body.length ∧
      (∀ f, (inPhase .read [⟨.refused 4 .range, false⟩]).host.outbound.head? = some f → 2 + f.report.body.length ≤ 4) ∧
      { active.host with startingUp := true }.startingUp = true ∧ (inPhase .spent []).host.phase = .spent :=
  ⟨by decide, by decide, by decide, by decide, by decide, by decide, by decide, fun _ h => by cases h; decide, by decide, by decide⟩

/-- R168, R169: a command frame of length 4 cut short after one body byte has had three bytes of filler shifted out. -/
theorem test_command_cut_short : ∃ t, exec (.selectInactive (.afterLength 4 4 0 1)) (inPhase .write []) = .next t ∧
    t.host.shiftOut = [0xFF, 0xFF, 0xFF] ∧ t.host.truncated = 1 := ⟨_, rfl, by decide +kernel, by decide +kernel⟩

/-- R174: a frame of REFUSED (12: kind, 2 body bytes) cut short after three bytes has shown those three, counts as read and
stays at the head. -/
theorem test_frame_cut_short : ∃ t, exec (.selectInactive (.reading 3)) (inPhase .read [⟨.refused 4 .range, false⟩]) = .next t ∧
    t.host.shiftOut.length = 3 ∧ t.host.outbound.map (·.begun) = [true] := ⟨_, rfl, by decide +kernel, by decide +kernel⟩

/-- The write phase with the inbound queue one frame, and two bytes, short of full. -/
def nearlyFull : State := { active with host := { active.host with
  phase := .write, inbound := Inbound.frame 4 [0, 0] :: List.replicate 10 (.frame 9 (List.replicate 35 0)) } }

theorem test_InboundFramesArePlacedOrCounted :
    nearlyFull.host.phase = .write ∧ nearlyFull.host.startingUp = false ∧ isCommandKind 31 = true ∧
      nearlyFull.host.inbound.length = 11 ∧ nearlyFull.host.taken = [] ∧
      (nearlyFull.host.inbound.map inboundSize).sum + 2 + 8 = 384 ∧
      isCommandKind 32 = false ∧ roomToAnswer nearlyFull ∧
      (asked (.take 1 1) active).host.inbound.length = 1 ∧ decodeCommand 0 4 [0] = none := by decide +kernel

theorem test_ReportsAreAdmittedOrCounted :
    (inPhase .idle (List.replicate 17 ⟨.refused 4 .range, false⟩)).host.outbound.length + 1 ≤ 18 ∧
      heldBytes (List.replicate 17 ⟨.refused 4 .range, false⟩) + 2 + (Report.refused 4 .range).body.length ≤ 672 ∧
      18 < (List.replicate 18 (⟨.refused 4 .range, false⟩ : Outbound)).length + 1 ∧
      (Report.feedUpdate 1 0 1948 40).isOrder = true ∧
      busy.host.outbound = [⟨.segmentOrder order false, false⟩] ++ ⟨.feedUpdate 1 0 1948 40, false⟩ :: [] ∧
      heldBytes busy.host.outbound + 2 + (Report.holdOrder 1 0).body.length ≤ 768 := by decide +kernel

/-- A store write in flight. -/
def writing (p : StorePlace) : State :=
  { active with store := { Store.initial with inFlight := some ⟨p, [1, 2], 5⟩, queue := [.serial] } }

theorem test_StoreWritesGoOutOneByOne :
    (writing (.slab 63)).store.inFlight = some ⟨.slab 63, [1, 2], 5⟩ ∧ (writing .erase).store.slabs.length = 64 ∧
      (writing .erase).store.jobs.length = 24 ∧ (writing .sump).store.inFlight.isSome = true ∧
      { Store.initial with queue := [.job 23, .erase] }.inFlight = none ∧ Store.initial.queue = [] ∧
      (writing .erase).store.inFlight = some ⟨.erase, [1, 2], 5⟩ := by decide +kernel

theorem test_IssuedIdIsFresh : stocked.register.places.length ≤ 64 ∧ 1 ≤ stocked.register.serial ∧
    { stocked.register with serial := 2047 }.serial ≤ 2047 := by decide

/-- R2: station 6 holds 12289 and 12290 (serials 1 and 2): with the counter at 1 it issues serial 3. -/
theorem test_first_free_serial :
    idToIssue { stocked with register := { stocked.register with serial := 1 } } = 12291 ∧
      (advanceSerial { stocked with register := { stocked.register with serial := 1 } }).register.serial = 4 := by
  decide +kernel

/-- A register with no free place, by its reservations. -/
def crowded : State := { stocked with register := { stocked.register with reservations := 60 } }

theorem test_EvictionTakesTheOldest :
    0 < freePlaces stocked ∧ freePlaces crowded = 0 ∧ evictionCandidates crowded ≠ [] ∧
      evictionCandidates { crowded with station := ⟨3, none⟩
                                        register := { crowded.register with
                                          places := [some slabA, some slabB] ++ List.replicate 62 none
                                          reservations := 62 } } = [] ∧
      freePlaces stocked = 60 ∧ evictionCandidates stocked ≠ [] ∧ stocked.register.places[2]? = some (some slabC) ∧
      (∀ k < 64, k ≠ 2 → ∀ q ∈ stocked.register.places.getD k none, q.id ≠ 6149) := by decide +kernel

theorem test_EnterSlabMakesARecord :
    let c := Instr.enterSlab 2 20 3000 2000 9000 stone.defects
    ready c (asked c stocked) ∧ stocked.register.places.length = 64 ∧ stocked.station.number = some 6 ∧
      contentsInRange 1 stone = true ∧ lowestFree stocked = some 4 ∧ (makeRoom crowded).isSome = true ∧
      lowestFree (removeSlab 6149 crowded) = some 2 ∧
      firstRefusal (enterSlabTable { stone with price := 65536 } stocked) = some .range ∧
      stocked.register.places[3]? = some (some slabD) ∧ muted.floor.attach = .muted ∧
      (∀ k < 64, k ≠ 3 → ∀ q ∈ (stocked.register.places.getD k none), q.id ≠ 6151) ∧ findSlab stocked 1 = none := by
  decide +kernel

/-- A register of fourteen records, in falling id order. -/
def shelf : State := { stocked with register := { stocked.register with
  places := ((List.range 14).map fun i => some { slabA with id := 12314 - i }) ++ List.replicate 50 none } }

theorem test_ReadingCommandsAnswerAndChangeNothing :
    ready (.readSlab 12289) (asked (.readSlab 12289) stocked) ∧ isSlabId 12289 = true ∧
      (findSlab stocked 12289).isSome = true ∧ ready (.readSlab 63488) (asked (.readSlab 63488) stocked) ∧
      isSlabId 63488 = false ∧ findSlab stocked 1 = none ∧ ready (.readSlab 1) (asked (.readSlab 1) stocked) ∧
      ready (.listSlabs 63488) (asked (.listSlabs 63488) stocked) ∧
      ready (.listSlabs 63487) (asked (.listSlabs 63487) stocked) ∧
      ready (.readJob 0) (asked (.readJob 0) stocked) ∧ ready (.readJob 501) (asked (.readJob 501) stocked) ∧
      (findJob stocked 501).isSome = true ∧ ready (.readJob 503) (asked (.readJob 503) stocked) ∧
      findJob stocked 503 = none ∧ ready .readStation (asked .readStation stocked) ∧
      ready .readPeers (asked .readPeers stocked) ∧ ready (.listSlabs 0) (asked (.listSlabs 0) shelf) ∧
      slabsDistinct shelf ∧ ((slabsFrom shelf 0).take 12).map (·.1) = (List.range 12).map (12301 + ·) ∧
      12 < (slabsFrom shelf 0).length ∧
      (inPhase .idle (List.replicate 17 ⟨.refused 4 .range, false⟩)).host.outbound.length ≤ 17 ∧
      heldBytes (List.replicate 17 ⟨.refused 4 .range, false⟩) + 2 + (stationView stocked).bytes.length ≤ 672 := by
  decide +kernel

theorem test_TakeMakesAPollingEntry :
    ready (.take 6151 501) (asked (.take 6151 501) stocked) ∧
      firstRefusal (takeTable 6151 501 stocked) = none ∧ (∀ e ∈ stocked.claims.entries, e.handle ≠ stocked.claims.nextHandle) ∧
      stocked.floor.queue.length < 16 ∧ firstRefusal (takeTable 6149 501 stocked) = some .slabGone ∧
      ready (.take 6149 501) (asked (.take 6149 501) stocked) := by decide +kernel

theorem test_GiveReleasesTheClaim :
    ready (.give 12289) (asked (.give 12289) stocked) ∧ firstRefusal (giveTable 12289 stocked) = none ∧
      (claimOn stocked 12289).map (·.purpose) = some (.slab 501) ∧
      firstRefusal (giveTable 12289 running) = some .slabBusy ∧
      ready (.give 12289) (asked (.give 12289) running) ∧ claimOn stocked 65529 = none ∧
      (claimOn { stocked with claims := ⟨[⟨0, 65529, .press, .held, 2, .done, none⟩], 0, 1⟩ } 65529).map
        (fun e => (e.stage, e.purpose)) = some (.held, .press) := by decide +kernel

theorem test_HandedNoticeTakesItsPlace :
    (queued (fullQueue.take 15) active).floor.queue.length < 16 ∧ 16 ≤ (queued fullQueue active).floor.queue.length ∧
      (∀ e ∈ (queued fullQueue active).floor.queue, e.age < (queued fullQueue active).floor.nextAge) ∧
      (claimOf (queued fullQueue stocked) 0).isSome = true ∧
      (∃ x ∈ (queued fullQueue stocked).floor.queue, x.sending = false ∧ 1 < x.notice.kind) ∧
      ∀ x ∈ (List.range 16).map (fun i => entry (.poll 12290) i false), x.sending = false → x.notice.kind ≤ 1 := by
  decide +kernel

theorem test_PlanHeadAndDropPlanEmptyTheSlot_jobs : [501, 502].Nodup ∧
    distinctJobs [⟨502, ⟨0, 0, 1, 1⟩⟩, ⟨501, ⟨5, 5, 1, 1⟩⟩, ⟨502, ⟨9, 9, 1, 1⟩⟩] = [502, 501] := by decide

theorem test_PlanHeadAndDropPlanEmptyTheSlot :
    ready (.planHead 1 12289) (asked (.planHead 1 12289) staged) ∧ namesSlab 12289 ∧
      ready (.planHead 1 12288) (asked (.planHead 1 12288) staged) ∧ ¬ namesSlab 12288 ∧
      staged.staged = .valid validPlan ∧ stocked.staged = .empty ∧ ready .dropPlan (asked .dropPlan staged) ∧
      ready .dropPlan (asked .dropPlan stocked) ∧
      (∀ p, { stocked with staged := .stale plan .gone }.staged ≠ .valid p) := by
  refine ⟨by decide +kernel, ⟨6, 1, by omega⟩, by decide +kernel, fun ⟨k, n, h⟩ => by omega, rfl, rfl, by decide +kernel, by decide +kernel, ?_⟩
  intro p; simp

/-- A plan being loaded. -/
def loading : State := { stocked with staged := .loading plan }

theorem test_LoadingFramesFillTheLists :
    ready (.planPieces plan.pieces) (asked (.planPieces plan.pieces) loading) ∧
      plan.pieces.all pieceInRange = true ∧ plan.pieces.length + 4 ≤ 16 ∧
      ready (.planPieces []) (asked (.planPieces []) loading) ∧ pieceInRange ⟨0, ⟨0, 0, 1, 1⟩⟩ = false ∧
      ready (.planRemnants []) (asked (.planRemnants []) loading) ∧ remnantInRange ⟨0, 0, 300, 299⟩ = false ∧
      remnantInRange ⟨3700, 0, 300, 300⟩ = true ∧
      ready (.planRemnants [⟨0, 0, 300, 299⟩]) (asked (.planRemnants [⟨0, 0, 300, 299⟩]) loading) ∧
      ready (.planSegments [⟨-200, 0, 4200, 0, 60, 15⟩]) (asked (.planSegments [⟨-200, 0, 4200, 0, 60, 15⟩]) loading) ∧
      segmentInRange ⟨-200, 0, 4200, 0, 60, 15⟩ = true ∧ segmentInRange ⟨-201, 0, 4200, 0, 60, 15⟩ = false ∧
      ready (.planSegments []) (asked (.planSegments []) loading) ∧ loading.staged = .loading plan ∧
      ready (.planPieces plan.pieces) (asked (.planPieces plan.pieces) staged) := by decide +kernel

theorem test_PlanEndValidatesOrRepeats :
    ready .planEnd (asked .planEnd loading) ∧ judgePlan loading plan = none ∧ checkJobs loading plan = none ∧
      plan.remnants.length ≤ placesOnOffer loading ∧
      judgePlan loading { plan with pieces := [] } = some (plainRejection 2 .piece 0) ∧
      judgePlan loading { plan with pieces := [⟨502, ⟨100, 200, 1000, 800⟩⟩] } = none ∧
      (checkJobs loading { plan with pieces := [⟨502, ⟨100, 200, 1000, 800⟩⟩] }).isSome = true ∧
      placesOnOffer { loading with register := { stocked.register with reservations := 62 } } = 2 ∧
      placesOnOffer { loading with
        register := { stocked.register with reservations := 64, places := [some slabA] ++ List.replicate 63 none } } = 0 ∧
      ready .planEnd (asked .planEnd staged) ∧ validPlan.estimate.isSome = true := by decide +kernel

theorem test_StartPlanMovesThePlan :
    ready .startPlan (asked .startPlan staged) ∧ firstRefusal (startPlanTable staged) = none ∧
      staged.staged = .valid validPlan ∧ firstRefusal (startPlanTable running) = some .state ∧
      ready .startPlan (asked .startPlan running) := by decide +kernel

theorem test_IssuePausesOrOrders :
    { running.water with effective := 19 }.effective < config.qmin ∧ config.qmin ≤ running.water.effective ∧
      feedLimit config (baseFeed config 22 2) running.water.effective = some 1948 ∧
      running.sump.volume < config.hardLimit ∧ config.hardLimit ≤ { Sump.reset with volume := 60000 }.volume := by decide

theorem test_AddedCauseOpensOneRecord :
    (inState .paused none ⟨true, false, false, false, false⟩ (some fault)).active.state = .paused ∧
      running.active.state ≠ .paused := by decide

theorem test_ContinueRemovesHostCauses :
    ready .continuePlan (asked .continuePlan (inState .paused none ⟨false, false, false, true, false⟩ (some fault))) ∧
      (inState .paused none ⟨true, false, false, true, false⟩ (some fault)).active.pending.waterShort = true ∧
      ready .continuePlan (asked .continuePlan (inState .paused none ⟨true, false, false, false, true⟩ (some fault))) ∧
      ready .continuePlan (asked .continuePlan running) ∧ running.active.state ≠ .paused := by decide +kernel

theorem test_AbortAndOverrunStopTheOrder :
    ready .abortPlan (asked .abortPlan running) ∧ running.active.order = some order ∧
      ready .abortPlan (asked .abortPlan (inState .paused none ⟨false, false, false, true, false⟩ (some fault))) ∧
      ready .abortPlan (asked .abortPlan stocked) ∧ stocked.active.state = .empty ∧
      ready .abortPlan (asked .abortPlan (inState .ending (some order) Pending.none (some fault))) ∧
      running.active.overrun.isSome = true ∧ running.active.state = .running := by decide +kernel

theorem test_SegmentReportsEndTheOrder :
    ready (.segmentDone 1 3200 986) (asked (.segmentDone 1 3200 986) running) ∧ running.active.order = some order ∧
      ready (.segmentDone 2 3200 986) (asked (.segmentDone 2 3200 986) running) ∧ order.tag = 1 ∧
      ready (.segmentPaused 1 65535 0) (asked (.segmentPaused 1 65535 0) running) ∧
      ready (.segmentFault 1 1 0 0) (asked (.segmentFault 1 1 0 0) running) ∧ causeOfCode 4 = some .bladeBroken ∧
      ready (.segmentFault 1 5 0 0) (asked (.segmentFault 1 5 0 0) running) ∧
      ready (.segmentFault 0 1 0 0) (asked (.segmentFault 0 1 0 0) running) := by decide +kernel

theorem test_DoneAndPausedMoveThePlan :
    running.active.state = .running ∧ 3199 < order.ordered ∧ running.active.nextSeg < running.active.plan.segments.length ∧
      order.ordered ≤ 3200 ∧ (inState .ending none Pending.none (some fault)).active.fault = some fault ∧
      (inState .aborted none Pending.none (some fault)).active.state = .aborted := by decide +kernel

theorem test_FaultReportsPauseOrAbort :
    running.active.state = .running ∧ order.segment < running.active.faultCounts.length ∧
      running.active.nextSeg < running.active.plan.segments.length ∧ { order with kind := .resume }.kind = .resume ∧
      min 3 (running.active.faultCounts.getD 0 0 + 1) < 3 ∧
      min 3 (({ running.active with faultCounts := [2, 0] }.faultCounts.getD 0 0) + 1) = 3 ∧
      (inState .ending none Pending.none (some fault)).active.state = .ending := by decide +kernel

theorem test_CompletedPlanSettlesTheSlab : lowestFree running = some 4 := by decide +kernel

/-- Slab B open, its claim held, and the plan on it ABORTED with `n` jobs of one piece each. -/
def openOn (n : Nat) : State :=
  let s := inState .aborted none Pending.none (some fault)
  { s with active := { s.active with plan := { plan with
    slab := 12290, pieces := (List.range n).map fun i => ⟨501 + i, ⟨100 * i, 200, 50, 800⟩⟩ } } }

theorem test_CloseSlabSettlesTheSlab :
    ready (.closeSlab 12290 1 0) (asked (.closeSlab 12290 1 0) stocked) ∧
      firstRefusal (closeSlabTable 12290 1 0 stocked) = none ∧
      ready (.closeSlab 12290 0 501) (asked (.closeSlab 12290 0 501) stocked) ∧
      firstRefusal (closeSlabTable 12290 0 501 stocked) = none ∧ abortedHere 12290 (openOn 6) = true ∧
      ready (.closeSlab 12290 0 0) (asked (.closeSlab 12290 0 0) (openOn 6)) ∧
      firstRefusal (closeSlabTable 12290 0 0 (openOn 6)) = none ∧
      5 < (apportion stone (openOn 6).active.plan.pieces 0).length ∧
      firstRefusal (closeSlabTable 12289 0 501 stocked) = some .state ∧
      ready (.closeSlab 12289 0 501) (asked (.closeSlab 12289 0 501) stocked) := by decide +kernel

theorem test_JobCommandsOpenCloseAndFree :
    ready (.openJob 65535 none) (asked (.openJob 65535 none) stocked) ∧ findJob stocked 65535 = none ∧
      stocked.jobs[2]? = some none ∧ (∀ k < 2, stocked.jobs[k]? ≠ some none) ∧
      ready (.closeJob 501) (asked (.closeJob 501) stocked) ∧ jobPlace stocked 501 = some 0 ∧
      (findJob stocked 501).map (·.closed) = some false ∧ (findJob stocked 501).map (·.inUse) = some 0 ∧
      ready (.freeJob 502) (asked (.freeJob 502) stocked) ∧ (findJob stocked 502).map (·.closed) = some true ∧
      jobPlace stocked 502 = some 1 ∧ firstRefusal (openJobTable 501 stocked) = some .state ∧
      ready (.openJob 501 none) (asked (.openJob 501 none) stocked) ∧
      firstRefusal (closeJobTable 502 stocked) = some .jobNotOpen ∧
      ready (.closeJob 502) (asked (.closeJob 502) stocked) ∧
      firstRefusal (freeJobTable 501 stocked) = some .state ∧
      ready (.freeJob 501) (asked (.freeJob 501) stocked) := by decide +kernel

theorem test_PostingAddsToOneJobRecord :
    (findJob stocked 501).isSome = true ∧ jobPlace stocked 501 = some 0 := by decide +kernel

/-- The account in a state, with its timers running. -/
def sumpIn (st : PurgeState) : State := { stocked with sump := ⟨45000, st, 44000, some 1000, some 30000⟩ }

theorem test_PurgeCycleRunsAsGiven :
    ready .purgeNow (asked .purgeNow stocked) ∧ firstRefusal (purgeNowTable (sumpIn .purging)) = some .state ∧
      ready .purgeNow (asked .purgeNow (sumpIn .purging)) ∧ stocked.floor.attach = .active ∧ 0 < stocked.sump.volume ∧
      claimOn stocked 65529 = none ∧ stocked.claims.entries.length < 8 ∧ stocked.floor.queue.length < 16 ∧
      (queued fullQueue stocked).floor.queue.length = 16 ∧
      (∀ e ∈ stocked.claims.entries, e.handle ≠ stocked.claims.nextHandle) ∧
      8 ≤ (List.replicate 8 (⟨0, 12289, .press, .held, 0, .done, none⟩ : ClaimEntry)).length ∧
      (sumpIn .purging).sump.state = .purging ∧ (sumpIn .purging).sump.purge.isSome = true ∧
      (sumpIn .retryWait).sump.state = .retryWait ∧ (sumpIn .retryWait).sump.retry.isSome = true ∧
      (sumpIn .idle).sump.state ≠ .purging ∧ (sumpIn .wantPress).sump.state = .wantPress := by decide +kernel

/-- LISTENING, the listen-in timer about to expire. -/
def listening : State := { inert with floor := { Floor.reset with attach := .listening, listenIn := some 0 } }

/-- INERT, the straps reading 31 and no number set. -/
def numberless : State := { inert with station := ⟨31, none⟩ }

theorem test_StationCommandsWorkInInert :
    ready .join (asked .join inert) ∧ inert.station.number ≠ none ∧ ready .join (asked .join numberless) ∧
      numberless.station.number = none ∧ listening.floor.listenIn.isSome = true ∧
      ready (.setStation 0xA6 0x3C 30) (asked (.setStation 0xA6 0x3C 30) numberless) ∧
      30 < numberless.station.straps ∧ numberless.station.setNumber = none ∧
      firstRefusal (setStationTable 0xA6 0x3C 31 numberless) = some .range ∧
      ready (.setStation 0xA6 0x3C 31) (asked (.setStation 0xA6 0x3C 31) numberless) ∧
      ready (.writeConfig config) (asked (.writeConfig config) inert) ∧
      ready (.writeConfig config) (asked (.writeConfig config) active) ∧ active.floor.attach ≠ .inert ∧
      ready (.writeCalibration 255 0) (asked (.writeCalibration 255 0) inert) ∧
      ready (.writeCalibration 255 0) (asked (.writeCalibration 255 0) active) ∧
      ready .storeErase (asked .storeErase inert) ∧ ready .storeErase (asked .storeErase active) := by decide +kernel

theorem test_HeardNoticesReachTheirOwners :
    sender (.helloReceived 6 100 0 1) = some 6 ∧ inert.floor.attach = .inert ∧ running.station.number = some 6 ∧
      running.floor.attach = .active ∧ running.station.number ≠ some 30 ∧ active.floor.attach ≠ .inert ∧
      muted.station.number = some 6 ∧ mutedAndSilent muted ∧ running.active.order = some order ∧
      (inState .ending (some order) Pending.none (some fault)).active.order = some order ∧
      (inState .paused none ⟨true, false, false, false, false⟩ (some fault)).active.fault = some fault ∧
      stocked.active.state = .empty := by decide +kernel

theorem test_SlabRetireAndHelloTakeEffect :
    stocked.station.number ≠ some 0 ∧ stocked.floor.attach ≠ .inert ∧ contentsInRange 0 stone = true ∧
      staged.staged = .valid validPlan ∧ validPlan.slab = 12289 ∧ (openOn 1).active.state = .aborted ∧
      (openOn 1).active.plan.slab = 12290 ∧ (openOn 1).active.order = none ∧
      (inState .aborted (some order) Pending.none (some fault)).active.order = some order := by decide +kernel

theorem test_DamagedNoticesAreCounted :
    active.floor.attach ≠ .inert ∧ active.floor.inStep = true ∧ listening.floor.attach ≠ .inert ∧
      listening.floor.inStep = false ∧ (queued [entry (.demand 0) 1 true] active).floor.inStep = true ∧
      (queued [entry (.demand 0) 1 true] active).floor.queue.find? (·.sending) = some (entry (.demand 0) 1 true) ∧
      active.floor.queue.find? (·.sending) = none ∧ ∃ j < 9, (4 * 32 + 6).testBit (8 - j) = true := by decide +kernel

/-- R158's worked table: station 3 sending a DEMAND (0100 00011) loses the line to station 9's POLL (0001 01001) at its
second precedence bit: the start bit, 0 and 1 are what it has put on the line. -/
theorem test_worked_contention :
    let sender : State := queued [entry (.demand 40) 1 false] { active with station := ⟨3, none⟩ }
    ∃ t u, exec .transmitAttempt sender = .next t ∧ exec (.pollReceived 9 12289) t = .next u ∧
      u.floor.lineOut = [false, false, true] ∧ u.floor.queue = [entry (.demand 40) 1 false] :=
  ⟨_, _, rfl, rfl, by decide +kernel, by decide +kernel⟩

/-- A POLL of the claim on slab A being sent, with a HELLO that waits. -/
def sendingPoll : State :=
  queued [⟨.poll 12289, some 0, 2, 5, true, false⟩, entry (.hello 100 0 1) 6 false] stocked

theorem test_AttemptsEndSentOrDropped :
    (queued [entry (.demand 0) 1 false] active).floor.attach = .active ∧
      (∀ x ∈ (queued [entry (.demand 0) 1 false] active).floor.queue, x.sending = false) ∧
      sendingPoll.floor.queue = [] ++ ⟨.poll 12289, some 0, 2, 5, true, false⟩ :: [entry (.hello 100 0 1) 6 false] ∧
      (∀ x ∈ ([] : List TxEntry) ++ [entry (.hello 100 0 1) 6 false], x.sending = false) ∧
      sendingPoll.floor.window = none ∧ (entry (.demand 0) 1 true).attempts + 1 < 3 ∧ (entry (.demand 0) 1 true).owner = none ∧
      sendingPoll.floor.queue.find? (·.sending) = some ⟨.poll 12289, some 0, 2, 5, true, false⟩ ∧ sendingPoll.own = 6 ∧
      1 * 32 + 5 < 1 * 32 + sendingPoll.own := by decide +kernel

/-- The window of the first poll, or of a confirm poll, of a claim on slab D. -/
def windowOf (stage : ClaimStage) (polls : Nat) : State :=
  { stocked with
    claims := ⟨[⟨7, 6151, .slab 501, stage, polls, .done, some 30⟩], 0, 8⟩
    floor := { active.floor with window := some ⟨7, stage == .tentative⟩ } }

theorem test_OwnWindowDecidesTheClaim :
    (windowOf .polling 1).floor.window = some ⟨7, false⟩ ∧
      (claimOf (windowOf .polling 1) 7).map (·.stage) = some .polling ∧
      (claimOf (windowOf .tentative 4) 7).map (·.stage) = some .tentative ∧
      (0x80000000#32).getLsbD 31 = true ∧ (0x40000000#32).getLsbD 31 = false ∧ (0x40000000#32).getLsbD 30 = true ∧
      (∀ j < 30, (0x40000000#32).getLsbD j = false) ∧ (windowOf .tentative 4).own = 6 ∧
      (0x20#32 ||| BitVec.twoPow 32 6).getLsbD 5 = true ∧ (∀ j < 5, (0x60#32).getLsbD j = false) ∧
      (claimOf (windowOf .polling 3) 7).isSome = true ∧ (windowOf .polling 3).floor.queue.length < 16 ∧
      (claimOf (queued fullQueue (windowOf .polling 3)) 7).map (·.polls) = some 3 ∧
      ((claimOn (windowOf .tentative 4) 6151).bind (·.settle)).isSome = true ∧
      claimOf { windowOf .polling 1 with claims := ClaimTable.reset } 7 = none ∧
      (claimOf (windowOf .held 4) 7).map (·.stage) = some .held := by decide +kernel

theorem test_ExpiriesAndPulsesTakeEffect :
    muted.register.sweep = some ⟨0, 100⟩ ∧
      ((slabRecords stocked).filter fun r => r.state == .stock && stocked.isOwn r.id && decide (0 < r.id)) ≠ [] ∧
      (∀ r ∈ slabRecords stocked, r.state = .stock → stocked.isOwn r.id = true → 0 < r.id → 12289 ≤ r.id) ∧
      (∃ r ∈ slabRecords stocked, r.id = 12289 ∧ r.state = .stock ∧ stocked.isOwn 12289 = true ∧ 0 < 12289) ∧
      { running.water with refresh := some 0, dwell := some 0 }.refresh.isSome = true ∧
      (inState .ending (some order) Pending.none (some fault)).active.stopWait.isSome = true ∧
      (inState .aborted (some order) Pending.none (some fault)).active.order = some order ∧
      (peerOf sharing 0).heard = some 2000 ∧ (peerOf sharing 0).presence = .present ∧
      (peerOf sharing 1).presence = .lapsed ∧ (peerOf sharing 1).heard = some 60000 ∧
      (∀ n ∈ (some 1999 : Option Nat), n < 2000) ∧ (peerOf sharing 2).presence = .absent ∧
      sharing.station.number ≠ some 0 ∧ running.active.state = .running ∧ stocked.active.state = .empty ∧
      slabRecords muted = [] ∧ muted.pending = [] ∧ dueCommands muted = [] ∧ listening.pending = [] ∧
      dueCommands listening = [.listenInExpiry] := by decide +kernel

theorem test_WaterShareFollowsThePlan :
    (waterFigures running).allotment = running.water.allotment ∧ (waterFigures running).fresh = running.water.fresh ∧
      (waterFigures running).effective = running.water.effective ∧
      (waterFigures sharing).effective ≠ sharing.water.effective ∧ config.qmin ≤ (waterFigures sharing).effective ∧
      running.active.order = some order ∧ order.held = false ∧ order.stopped = false ∧
      running.floor.attach = .active ∧ inert.floor.attach ≠ .active ∧
      (∃ e ∈ (queued fullQueue active).floor.queue, e.sending = false ∧ e.notice.kind = 4) ∧
      oneDemand [entry (.demand 40) 1 false, entry (.demand 20) 2 false, entry (.hello 100 0 1) 0 false] =
        [entry (.demand 20) 1 false, entry (.hello 100 0 1) 0 false] := by decide +kernel

/-! ### Figures the handbook works out -/

/-- Slab 12363 of the worked sequences (03, 05). -/
def slab12363 : SlabContents := ⟨2, 30, 3200, 1900, 9500, none, [⟨.void, 2900, 300, 80, 60⟩, ⟨.fissure, 3000, 900, 20, 500⟩]⟩

/-- Plan 3107 of the worked sequence of 03, segment 2 ending at (1224, `stop`). -/
def plan3107 (stop : Int) : Plan :=
  ⟨3107, 12363, [⟨501, ⟨20, 20, 2400, 640⟩⟩, ⟨501, ⟨20, 664, 1200, 640⟩⟩, ⟨502, ⟨1228, 664, 1500, 900⟩⟩],
    [⟨20, 1568, 3160, 312⟩],
    [⟨.rip, ⟨-200, 662⟩, ⟨2400, 662⟩, none, false, 0⟩, ⟨.cross, ⟨2422, -200⟩, ⟨2422, 662⟩, none, false, 0⟩,
      ⟨.cross, ⟨1224, 662⟩, ⟨1224, stop⟩, none, false, 1⟩, ⟨.rip, ⟨-200, 1566⟩, ⟨3400, 1566⟩, none, false, 2⟩,
      ⟨.cross, ⟨2730, 662⟩, ⟨2730, 1566⟩, none, false, 2⟩], none, 0⟩

/-- The station of that sequence, slab 12363 its only record. -/
def shop : State := { active with register := { Register.reset with
  places := some ⟨12363, slab12363, .stock, none, 1⟩ :: List.replicate 63 none } }

/-- 03, the first PLAN END: check 7, segment 2 against remnant 0 at (1222, 1568). -/
theorem test_worked_rejection :
    judgePlan shop (plan3107 1900) = some ⟨7, .segment, 2, some (.remnant, 0), some ⟨1222, 1568⟩, none⟩ ∧
      judgePlan shop (plan3107 1566) = none := by decide +kernel

/-- 03, the estimate of the second PLAN END. -/
theorem test_worked_estimate :
    estimateOf config slab12363 (plan3107 1566) =
      ⟨3979, 2654, 364, 1035, [⟨501, 263, 197, 537, 22, 30515⟩, ⟨502, 271, 203, 555, 22, 17879⟩], 50464⟩ := by
  decide +kernel

/-- 05, the rip at a shared loop, with its bevel, limit, floor and clamp variants. -/
theorem test_worked_feed :
    baseFeed config 32 2 = 1339 ∧ feedLimit config 1339 33 = some 1104 ∧ expectedTime 2600 1104 = 1414 ∧
      expectedWater 33 1414 = 778 ∧ effectiveDepth 30 2 ⟨.rip, ⟨0, 0⟩, ⟨1, 0⟩, none, true, 0⟩ = 46 ∧
      baseFeed config 46 2 = 931 ∧ feedLimit config 931 33 = some 768 ∧ feedLimit config 1339 20 = some 669 ∧
      feedLimit config 1339 19 = none ∧ feedLimit { config with fmin := 700 } 1339 20 = some 700 ∧
      baseFeed config 5 2 = 4500 := by decide

/-- 05, the rip charged in one portion. -/
theorem test_worked_portion :
    inStoneLength slab12363 .rip ⟨-200, 662⟩ ⟨2400, 662⟩ = 2400 ∧ meteredWater 1575 0 20 = 787 ∧
      meterRemainder 1575 0 20 = 10 ∧
      portionOf config 2 32 2400 1431 787 0 = ⟨2400, 1431, 787, 0, 108, 308, 191, 119, 324, 13, 647⟩ := by decide +kernel

/-- 05, plan 3107 completed; and the residue, which goes to the first of two equal jobs. -/
theorem test_worked_shares :
    apportion slab12363 (plan3107 1566).pieces 9859 = [⟨501, 32121, 30515⟩, ⟨502, 18820, 17879⟩] ∧
      apportion ⟨0, 20, 900, 600, 20000, none, []⟩
        [⟨710, ⟨0, 0, 400, 300⟩⟩, ⟨711, ⟨0, 300, 400, 300⟩⟩, ⟨712, ⟨500, 0, 200, 149⟩⟩] 0 =
        [⟨710, 2403, 4806⟩, ⟨711, 2401, 4802⟩, ⟨712, 596, 1192⟩] := by decide +kernel

/-- 06, four stations on a loop of 100, fresh makeup on with a limit of 10: the rows' A and fresh draw. -/
theorem test_worked_water :
    allotmentOf 40 120 100 = 33 ∧ freshDraw { config with makeup := 1, freshLimit := 10 } 40 33 = 7 ∧
      allotmentOf 40 150 100 = 26 ∧ freshDraw { config with makeup := 1, freshLimit := 10 } 40 26 = 10 ∧
      allotmentOf 40 110 100 = 36 ∧ feedLimit config 1339 36 = some 1205 := by decide

/-- 01, two remnants from a flawed slab: the defects they carry. -/
theorem test_worked_defects :
    [Defect.mk .void 1000 900 60 40, ⟨.fissure, 2300, 400, 30, 700⟩, ⟨.void, 400, 200, 25, 25⟩].filterMap
        (carriedDefect ⟨1000, 940, 1200, 600⟩) = [⟨.void, 0, 0, 60, 0⟩] ∧
      [Defect.mk .void 1000 900 60 40, ⟨.fissure, 2300, 400, 30, 700⟩, ⟨.void, 400, 200, 25, 25⟩].filterMap
        (carriedDefect ⟨2330, 300, 400, 1000⟩) = [⟨.fissure, 0, 100, 0, 700⟩] := by decide

/-! ### Steps -/

/-- The fields of a next state. -/
def after (o : Host.Outcome State Fault Refusal) (p : State → Bool) : Bool :=
  match o with
  | .next t => p t
  | _ => false

/-- A pin reset and the end of start-up leave State.reset. -/
theorem test_reset_runs_to_reset :
    after (exec (.pinReset 0) State.reset) (fun t => t.host.startingUp && after (exec .startUpEnd t) (· == State.reset)) =
      true := by decide +kernel

/-- JOIN from a fresh station 6 starts the listen-in. -/
theorem test_join : after (step joining) (fun t => t.floor.attach == .listening && t.floor.listenIn == some 2500 &&
    t.pending.isEmpty && t.host.outbound.map (·.report) == [.accepted 0x18 .bare]) = true := by decide +kernel

/-- TAKE hands the POLL of the new claim. -/
theorem test_take : after (exec (.take 6151 501) (asked (.take 6151 501) stocked)) (fun t =>
    t.floor.queue.map (·.notice) == [.poll 6151] && t.claims.entries.length == 3) = true := by decide +kernel

/-- START PLAN issues the order of the first segment with the feed of 22 mm of class 2 stone. -/
theorem test_startPlan : after (exec .startPlan (asked .startPlan staged)) (fun t =>
    t.active.order.any (fun o => o.tag == 1 && o.depth == 22 && o.ordered == 3200 && o.feed == 1948) &&
      t.active.overrun == some 424400 && t.staged == .empty) = true := by decide +kernel

/-- DEMAND 40 and 40 from two peers of a running plan bring its allotment down to 33 and its feed with it. -/
theorem test_demand : after (exec (.demandReceived 3 40) running) (fun t =>
    after (exec (.demandReceived 9 40) t) (fun u => u.water.allotment == 33 && u.active.order.any (·.feed == 1948 * 33 / 40))) =
      true := by decide +kernel

/-- With no command waiting and no timer due, a millisecond passes. -/
theorem test_idle : step muted = .next (tick muted) ∧ (tick muted).register.sweep = some ⟨0, 99⟩ := by
  have h : dueCommands muted = [] := by decide +kernel
  exact ⟨by unfold step idle chooseDue; rw [h]; rfl, by decide +kernel⟩

end Sys2Proof.Tests
end

/-! SUPPORT. A command the host link can take: it is carried out, its reply is admitted, and the first check that applies
refuses it (R171, R172). -/

namespace Sys2Proof.Machine

open Sys2Proof Sys2Proof.Safety

/-- R171: a table of checks refuses nothing exactly when none of its rows applies. -/
theorem firstRefusal_eq_none_iff (checks : List (Bool × Reason)) :
    firstRefusal checks = none ↔ ∀ c ∈ checks, c.1 = false := by
  induction checks with
  | nil => simp [firstRefusal]
  | cons c rest ih =>
    obtain ⟨applies, why⟩ := c
    cases applies <;> simp [firstRefusal, ih]

/-- R171: a command that stands at the head with room for its answer is taken. -/
theorem takeCommand_of_ready {c : Instr} {run : State → State} {s : State} (h : ready c s) :
    takeCommand 0 c run s = .next (launchWrite (run (popInbound s))) := by
  obtain ⟨head, room⟩ := h
  have hroom : commandRoom s = true := (commandRoom_iff s).mpr room
  exact takeCommand_taken (by simp [canTake, hroom, head])

/-- R171, R172: the room test leaves room for a report of up to 248 bytes, so it is admitted as the command's reply. -/
theorem report_popInbound {r : Report} {s : State} (room : roomToAnswer s) (size : r.size ≤ 248) :
    report r (popInbound s) = answered r s := by
  obtain ⟨frames, bytes⟩ := room
  refine report_admitted ((admits_iff r (popInbound s)).mpr ⟨?_, ?_⟩)
  · simp only [popInbound]; omega
  · simp only [popInbound]; omega

/-- 12: a bare ACCEPTED frame: kind, length and the command. -/
@[simp] theorem Report.size_accepted_bare (command : Nat) : (Report.accepted command .bare).size = 3 := rfl

/-- 12: a REFUSED frame: kind, length, the command and the reason. -/
@[simp] theorem Report.size_refused (command : Nat) (why : Reason) : (Report.refused command why).size = 4 := rfl

/-- R171: the bare ACCEPTED reply is admitted. -/
theorem accept_popInbound (command : Nat) {s : State} (room : roomToAnswer s) :
    accept command (popInbound s) = acceptedBy command s :=
  report_popInbound room (by simp)

/-- R171: the REFUSED reply is admitted. -/
theorem refuse_popInbound (command : Nat) (why : Reason) {s : State} (room : roomToAnswer s) :
    refuse command why (popInbound s) = refusedBy command why s :=
  report_popInbound room (by simp)

/-- R171: a command some check refuses is answered REFUSED and does nothing else. -/
theorem checked_refused {command : Nat} {checks : List (Bool × Reason)} {why : Reason} {run : State → State}
    {s : State} (room : roomToAnswer s) (h : firstRefusal checks = some why) :
    checked command checks run (popInbound s) = refusedBy command why s := by
  simp only [checked, h]
  exact refuse_popInbound command why room

/-- R171: a command no check refuses is run. -/
theorem checked_run {command : Nat} {checks : List (Bool × Reason)} {run : State → State} {s : State}
    (h : firstRefusal checks = none) : checked command checks run s = run s := by
  simp only [checked, h]

end Sys2Proof.Machine

/-! PROOF. GIVE and the release of a HELD claim (R36, R37). -/

namespace Sys2Proof.Machine

open Sys2Proof Sys2Proof.Safety

/-! ### Releases -/

/-- R38, R40: a release that finds no HELD entry changes nothing. -/
theorem releaseClaim_of_not_held {resource : Nat} {s : State}
    (h : ∀ e, claimOn s resource = some e → e.stage ≠ .held) : releaseClaim resource s = s := by
  unfold releaseClaim
  split
  · rfl
  · next e found => exact if_neg (h e found)

/-- R37: the HELD entry of a slab leaves the table, RELEASE is handed, and the holder field is cleared. -/
theorem releaseClaim_of_held_slab {resource job : Nat} {e : ClaimEntry} {s : State}
    (found : claimOn s resource = some e) (held : e.stage = .held) (purpose : e.purpose = .slab job) :
    releaseClaim resource s =
      setHolder resource none (handNotice (.release resource) none (removeClaim e.handle s)) := by
  simp only [releaseClaim, found, held, purpose, if_true]

/-- R37: the HELD entry of a press leaves the table and RELEASE is handed; a press has no holder field. -/
theorem releaseClaim_of_held_press {resource : Nat} {e : ClaimEntry} {s : State}
    (found : claimOn s resource = some e) (held : e.stage = .held) (purpose : e.purpose = .press) :
    releaseClaim resource s = handNotice (.release resource) none (removeClaim e.handle s) := by
  simp only [releaseClaim, found, held, purpose, if_true]

/-! ### GIVE -/

/-- R36: the states of the active slot in which its slab is not given up. -/
theorem ActiveState.refersToSlab_eq_mem (a : ActiveState) :
    a.refersToSlab = decide (a ∈ [ActiveState.running, .paused, .ending, .aborted]) := by
  cases a <;> rfl

/-- A resource is not HELD when its entry, where it has one, is in another stage. -/
theorem not_isHeld_eq_all (s : State) (resource : Nat) :
    (!isHeld s resource) = (claimOn s resource).all (·.stage != .held) := by
  unfold isHeld
  cases claimOn s resource <;> rfl

/-- R36: GIVE runs the checks of its table, and then the release. -/
theorem runGive_eq_checked (slab : Nat) (s : State) :
    runGive slab s = checked 0x05 (giveTable slab s) (fun s => releaseClaim slab (accept 0x05 s)) s := by
  simp only [runGive, activeOn, ActiveState.refersToSlab_eq_mem, not_isHeld_eq_all, giveTable]

/-- R171: the checks of GIVE do not look at the inbound queue. -/
theorem giveTable_popInbound (slab : Nat) (s : State) : giveTable slab (popInbound s) = giveTable slab s := rfl

/-- R36, R171: GIVE taken from the head of the inbound queue. -/
theorem exec_give_of_ready {slab : Nat} {s : State} (h : ready (.give slab) s) :
    exec (.give slab) s = .next (launchWrite
      (checked 0x05 (giveTable slab s) (fun s => releaseClaim slab (accept 0x05 s)) (popInbound s))) := by
  have taken : exec (.give slab) s = .next (launchWrite (runGive slab (popInbound s))) := takeCommand_of_ready h
  rw [taken, runGive_eq_checked, giveTable_popInbound]

/-- R36: an entry that GIVE's checks let through is HELD. -/
theorem held_of_giveTable_passed {slab : Nat} {e : ClaimEntry} {s : State}
    (passed : firstRefusal (giveTable slab s) = none) (found : claimOn s slab = some e) : e.stage = .held := by
  have stateRow := (firstRefusal_eq_none_iff _).mp passed ((claimOn s slab).all (·.stage != .held), .state)
    (by simp [giveTable])
  simpa [found] using stateRow

end Sys2Proof.Machine

namespace Sys2Proof.Proofs

open Sys2Proof Sys2Proof.Machine Sys2Proof.Safety

/-- Settles O33: GIVE's own clauses by its checks, and every release by whether its entry is HELD and for what. -/
theorem giveReleasesTheClaim : Obligations.GiveReleasesTheClaim := by
  refine ⟨fun slab s hready => ⟨fun why refused => ?_, fun e job passed found purpose => ?_⟩,
    fun resource s => ⟨releaseClaim_of_not_held, fun e found held => ⟨fun job purpose => ?_, fun purpose => ?_⟩⟩⟩
  · rw [exec_give_of_ready hready, checked_refused hready.2 refused]
  · have held := held_of_giveTable_passed passed found
    have foundAfter : claimOn (acceptedBy 0x05 s) slab = some e := found
    rw [exec_give_of_ready hready, checked_run passed, accept_popInbound 0x05 hready.2,
      releaseClaim_of_held_slab foundAfter held purpose]
    rfl
  · exact releaseClaim_of_held_slab found held purpose
  · exact releaseClaim_of_held_press found held purpose

end Sys2Proof.Proofs

/-! PROOF. The loading frames PLAN PIECES, PLAN REMNANTS and PLAN SEGMENTS (R43, R44, R46 to R48). -/

namespace Sys2Proof.Machine

open Sys2Proof Sys2Proof.Safety

/-! ### The limits of a plan's entries -/

/-- R43: the limits of a rectangle. -/
theorem rectInRange_iff (r : Rect) : rectInRange r = true ↔ rectHolds r := by
  simp only [rectInRange, rectHolds, Bool.and_eq_true, decide_eq_true_eq, and_assoc]

/-- R43: a piece has a job number and a rectangle within the limits. -/
theorem pieceInRange_iff (p : PieceEntry) :
    pieceInRange p = true ↔ 1 ≤ p.job ∧ p.job ≤ 65535 ∧ rectHolds p.rect := by
  simp only [pieceInRange, isJobNumber, Bool.and_eq_true, decide_eq_true_eq, rectInRange_iff, and_assoc]

/-- R43: a remnant has a rectangle within the limits and is at least 300 each way. -/
theorem remnantInRange_iff (r : Rect) : remnantInRange r = true ↔ rectHolds r ∧ 300 ≤ r.w ∧ 300 ≤ r.h := by
  simp only [remnantInRange, Bool.and_eq_true, decide_eq_true_eq, rectInRange_iff, and_assoc]

/-- R44: a segment entry keeps its endpoints, its depth and its piece index within the limits. -/
theorem segmentInRange_iff (e : SegmentEntry) : segmentInRange e = true ↔ segmentHolds e := by
  simp only [segmentInRange, segmentHolds, coordInRange, Bool.and_eq_true, decide_eq_true_eq,
    List.forall_mem_cons, List.not_mem_nil, false_implies, implies_true, and_true, and_assoc]
  rfl

/-- R44, 12: what the mode byte says: depth in bits 0 to 5, the bevel in bit 6, the kind in bit 7. -/
theorem entrySegment_of_byte {e : SegmentEntry} (byte : e.mode < 256) : entrySegment e = {
    kind := if e.mode < 128 then .rip else .cross, start := ⟨e.startX, e.startY⟩, stop := ⟨e.endX, e.endY⟩
    depth := if e.mode % 64 = 0 then none else some (e.mode % 64)
    bevel := decide (64 ≤ e.mode % 128), piece := e.piece } := by
  have kindBit : (if e.mode / 128 % 2 = 0 then SegKind.rip else .cross) = if e.mode < 128 then .rip else .cross :=
    if_congr (by omega) rfl rfl
  have bevelBit : decide (e.mode / 64 % 2 = 1) = decide (64 ≤ e.mode % 128) := decide_eq_decide.mpr (by omega)
  rw [entrySegment, kindBit, bevelBit]
  rfl

/-! ### A frame's entries against a list's limits -/

/-- R46, R48: a frame carries 1 to `most` entries, each within its limits, and the list they join ends no longer than
`longest`. -/
def entriesFit {α : Type} (most longest : Nat) (ok : α → Bool) (entries : List α) (held : Nat) : Bool :=
  1 ≤ entries.length && entries.length ≤ most && entries.all ok && held + entries.length ≤ longest

theorem entriesFit_eq_true_iff {α : Type} {most longest held : Nat} {ok : α → Bool} {entries : List α} :
    entriesFit most longest ok entries held = true ↔
      entries ≠ [] ∧ entries.length ≤ most ∧ (∀ e ∈ entries, ok e = true) ∧ held + entries.length ≤ longest := by
  simp only [entriesFit, Bool.and_eq_true, decide_eq_true_eq, List.all_eq_true, and_assoc, Nat.one_le_iff_ne_zero,
    ne_eq, List.length_eq_zero_iff]

theorem entriesFit_eq_false_iff {α : Type} {most longest held : Nat} {ok : α → Bool} {entries : List α} :
    entriesFit most longest ok entries held = false ↔
      entries = [] ∨ most < entries.length ∨ (∃ e ∈ entries, ok e = false) ∨ longest < held + entries.length := by
  simp only [← Bool.not_eq_true, entriesFit_eq_true_iff, not_and_or, not_le, not_not, not_forall, exists_prop]

/-! ### Taking a loading frame -/

/-- R46 to R48: a loading frame finds no LOADING slot. -/
theorem loadFrame_of_not_loading {command : Nat} {fits : Plan → Bool} {change : Plan → Plan} {s : State}
    (h : ∀ p, s.staged ≠ .loading p) : loadFrame command fits change s = refuse command .state s := by
  cases hs : s.staged with
  | loading p => exact absurd hs (h p)
  | empty => simp only [loadFrame, hs, Staged.loading?]
  | valid p => simp only [loadFrame, hs, Staged.loading?]
  | rejected p why => simp only [loadFrame, hs, Staged.loading?]
  | stale p cause => simp only [loadFrame, hs, Staged.loading?]

/-- R46 to R48: a loading frame on a LOADING slot is taken where it fits, and refused with RANGE where it does not. -/
theorem loadFrame_of_loading {command : Nat} {fits : Plan → Bool} {change : Plan → Plan} {s : State} {p : Plan}
    (h : s.staged = .loading p) : loadFrame command fits change s =
      if fits p then { accept command s with staged := .loading (change p) } else refuse command .range s := by
  simp only [loadFrame, h, Staged.loading?]

/-- R46 to R48, R171: the three outcomes of a loading frame taken from the head of the inbound queue. -/
theorem exec_loadFrame {c : Instr} {command : Nat} {fits : Plan → Bool} {change : Plan → Plan} {s : State}
    (isLoad : exec c s = takeCommand 0 c (loadFrame command fits change) s) (h : ready c s) :
    ((∀ p, s.staged ≠ .loading p) → exec c s = .next (launchWrite (refusedBy command .state s))) ∧
    (∀ p, s.staged = .loading p →
      (fits p = false → exec c s = .next (launchWrite (refusedBy command .range s))) ∧
      (fits p = true →
        exec c s = .next (launchWrite { acceptedBy command s with staged := .loading (change p) }))) := by
  rw [isLoad, takeCommand_of_ready h]
  refine ⟨fun notLoading => ?_, fun p loading => ?_⟩
  · rw [loadFrame_of_not_loading (s := popInbound s) notLoading, refuse_popInbound command .state h.2]
  · rw [loadFrame_of_loading (s := popInbound s) loading, accept_popInbound command h.2,
      refuse_popInbound command .range h.2]
    exact ⟨fun unfit => by rw [unfit]; rfl, fun fit => by rw [fit]; rfl⟩

/-- R46, R48, R171: the three outcomes of a frame whose entries join a list. -/
theorem exec_entriesFrame {α : Type} {c : Instr} {command most longest : Nat} {ok : α → Bool} {entries : List α}
    {held : Plan → Nat} {change : Plan → Plan} {s : State}
    (isLoad : exec c s = takeCommand 0 c
      (loadFrame command (fun p => entriesFit most longest ok entries (held p)) change) s) (h : ready c s) :
    ((∀ p, s.staged ≠ .loading p) → exec c s = .next (launchWrite (refusedBy command .state s))) ∧
    (∀ p, s.staged = .loading p →
      (entries = [] ∨ most < entries.length ∨ (∃ e ∈ entries, ok e = false) ∨ longest < held p + entries.length →
        exec c s = .next (launchWrite (refusedBy command .range s))) ∧
      (entries ≠ [] → entries.length ≤ most → (∀ e ∈ entries, ok e = true) → held p + entries.length ≤ longest →
        exec c s = .next (launchWrite { acceptedBy command s with staged := .loading (change p) }))) := by
  obtain ⟨notLoading, loading⟩ := exec_loadFrame isLoad h
  refine ⟨notLoading, fun p hp => ?_⟩
  obtain ⟨refused, accepted⟩ := loading p hp
  exact ⟨fun unfit => refused (entriesFit_eq_false_iff.mpr unfit), fun carried count limits length =>
    accepted (entriesFit_eq_true_iff.mpr ⟨carried, count, limits, length⟩)⟩

/-- R46: PLAN PIECES is a loading frame: 1 to 4 entries, 16 pieces in all, appended. -/
theorem exec_planPieces_eq_loadFrame (pieces : List PieceEntry) (s : State) :
    exec (.planPieces pieces) s = takeCommand 0 (.planPieces pieces)
      (loadFrame 0x07 (fun p => entriesFit 4 16 pieceInRange pieces p.pieces.length)
        fun p => { p with pieces := p.pieces ++ pieces }) s := rfl

/-- R47: PLAN REMNANTS is a loading frame: up to 4 entries, which replace the list. -/
theorem exec_planRemnants_eq_loadFrame (remnants : List Rect) (s : State) :
    exec (.planRemnants remnants) s = takeCommand 0 (.planRemnants remnants)
      (loadFrame 0x08 (fun _ => remnants.length ≤ 4 && remnants.all remnantInRange)
        fun p => { p with remnants := remnants }) s := rfl

/-- R48: PLAN SEGMENTS is a loading frame: 1 to 6 entries, 40 segments in all, appended. -/
theorem exec_planSegments_eq_loadFrame (segments : List SegmentEntry) (s : State) :
    exec (.planSegments segments) s = takeCommand 0 (.planSegments segments)
      (loadFrame 0x09 (fun p => entriesFit 6 40 segmentInRange segments p.segments.length)
        fun p => { p with segments := p.segments ++ segments.map entrySegment }) s := rfl

end Sys2Proof.Machine

namespace Sys2Proof.Proofs

open Sys2Proof Sys2Proof.Machine Sys2Proof.Safety

/-- Settles O36: the limits entry by entry, and each frame by the three outcomes of a loading frame. -/
theorem loadingFramesFillTheLists : Obligations.LoadingFramesFillTheLists := by
  refine ⟨pieceInRange_iff, remnantInRange_iff, fun e => ⟨segmentInRange_iff e, entrySegment_of_byte⟩,
    fun pieces s hready => exec_entriesFrame (exec_planPieces_eq_loadFrame pieces s) hready,
    fun remnants s hready => ?_,
    fun segments s hready => exec_entriesFrame (exec_planSegments_eq_loadFrame segments s) hready⟩
  obtain ⟨notLoading, loading⟩ := exec_loadFrame (exec_planRemnants_eq_loadFrame remnants s) hready
  refine ⟨notLoading, fun p hp => ?_⟩
  obtain ⟨refused, accepted⟩ := loading p hp
  refine ⟨fun unfit => refused ?_, fun count limits => accepted ?_⟩
  · simpa only [Bool.and_eq_false_iff, decide_eq_false_iff_not, not_le, List.all_eq_false, Bool.not_eq_true]
      using unfit
  · simpa only [Bool.and_eq_true, decide_eq_true_eq, List.all_eq_true] using And.intro count limits

end Sys2Proof.Proofs

/-! PROOF. Checks over lists, the usable region and the gaps between a plan's items (R5, R50, R52, R53). -/

namespace Sys2Proof.Machine

open Sys2Proof Sys2Proof.Safety

/-! ### The first failure of a list -/

section FirstFailure
variable {α β : Type} {check : Nat → α → Option β} {passes : α → Prop}

/-- R50: a check that looks at an item alone finds no failure exactly when every item passes. -/
theorem firstFailure_eq_none_iff_forall (h : ∀ i a, check i a = none ↔ passes a) (n : Nat) (l : List α) :
    firstFailure check n l = none ↔ ∀ a ∈ l, passes a := by
  simp only [firstFailure_eq_none, h, List.forall_mem_iff_forall_getElem]

/-- R50, R59: the failure found is that of an item before which all pass, under that item's index. -/
theorem exists_of_firstFailure_from_eq_some (h : ∀ i a, check i a = none ↔ passes a) {n : Nat} {l : List α} {b : β}
    (found : firstFailure check n l = some b) :
    ∃ before a after, l = before ++ a :: after ∧ (∀ q ∈ before, passes q) ∧ check (n + before.length) a = some b := by
  induction l generalizing n with
  | nil => simp [firstFailure] at found
  | cons a l ih =>
    cases ha : check n a with
    | some c =>
      have hcb : c = b := by simpa [firstFailure, ha] using found
      exact ⟨[], a, l, rfl, by simp, by simpa [hcb] using ha⟩
    | none =>
      have later : firstFailure check (n + 1) l = some b := by simpa [firstFailure, ha] using found
      obtain ⟨before, x, after, rfl, passed, fails⟩ := ih later
      refine ⟨a :: before, x, after, rfl, List.forall_mem_cons.mpr ⟨(h n a).mp ha, passed⟩, ?_⟩
      rwa [List.length_cons, ← Nat.add_assoc, Nat.add_right_comm]

/-- R50, R59: of a whole list, the item's place is its index. -/
theorem exists_of_firstFailure_eq_some (h : ∀ i a, check i a = none ↔ passes a) {l : List α} {b : β}
    (found : firstFailure check 0 l = some b) :
    ∃ before a after, l = before ++ a :: after ∧ (∀ q ∈ before, passes q) ∧ check before.length a = some b := by
  simpa only [Nat.zero_add] using exists_of_firstFailure_from_eq_some h found

/-- A check over mapped items is a check over the items. -/
theorem firstFailure_map {γ : Type} (f : γ → α) (n : Nat) (l : List γ) :
    firstFailure check n (l.map f) = firstFailure (fun i c => check i (f c)) n l := by
  induction l generalizing n with
  | nil => rfl
  | cons c l ih => simp only [List.map_cons, firstFailure, ih]

/-- A search among numbered items is a check over the items. -/
theorem findSome?_mapIdx_eq_firstFailure {γ : Type} (f : Nat → α → γ) (g : γ → Option β) (l : List α) :
    (l.mapIdx f).findSome? g = firstFailure (fun i a => g (f i a)) 0 l := by
  suffices from' : ∀ n, (l.mapIdx fun i a => f (n + i) a).findSome? g = firstFailure (fun i a => g (f i a)) n l by
    simpa using from' 0
  induction l with
  | nil => intro n; rfl
  | cons a l ih =>
    intro n
    have rest := ih (n + 1)
    simp only [Nat.add_right_comm n 1, Nat.add_assoc] at rest
    simp only [List.mapIdx_cons, List.findSome?_cons, firstFailure, Nat.add_zero, rest]
    cases g (f n a) <;> rfl

end FirstFailure

/-! ### The usable region (R5) -/

section Region
variable {cfg : ConfigFields} {c : SlabContents} {r : Rect}

/-- R5: a corner in whole millimetres against the inset outline. -/
theorem insetHolds_iff (cfg : ConfigFields) (c : SlabContents) (x y : Nat) :
    insetHolds cfg.margin c.width c.height ⟨x, y⟩ = true ↔ insideInset cfg c x y := by
  simp only [insetHolds, insideInset, Bool.and_eq_true, decide_eq_true_eq]
  omega

/-- R5: the corners of a rectangle in whole millimetres, in the order they are tried. -/
def rectCorners (r : Rect) : List (Nat × Nat) :=
  [(r.x, r.y), (r.x + r.w, r.y), (r.x + r.w, r.y + r.h), (r.x, r.y + r.h)]

theorem rectBox_corners (r : Rect) :
    (rectBox r).corners = (rectCorners r).map fun q => ⟨(q.1 : Int), (q.2 : Int)⟩ := by
  simp [Box.corners, rectBox, rectCorners]

/-- R5: a rectangle's corners lie in the inset outline when its lower-left and upper-right ones do. -/
theorem rectCorners_inside_iff : (∀ q ∈ rectCorners r, insideInset cfg c q.1 q.2) ↔
    insideInset cfg c r.x r.y ∧ insideInset cfg c (r.x + r.w) (r.y + r.h) := by
  simp only [rectCorners, insideInset, List.forall_mem_cons, List.not_mem_nil, false_implies, implies_true, and_true]
  omega

/-- R5: one defect against a box, with its index. -/
def defectCheck (guard width height : Nat) (b : Box) (i : Nat) (d : Defect) : Option RegionFailure :=
  let e := excludedBox guard width height d
  if e.hasArea && b.meets e then some ⟨b.sharedCorner e, some i⟩ else none

/-- R5: the defects are checked in list order. -/
theorem defectFailure_eq_firstFailure (guard width height : Nat) (b : Box) (i : Nat) (ds : List Defect) :
    defectFailure guard width height b i ds = firstFailure (defectCheck guard width height b) i ds := by
  induction ds generalizing i with
  | nil => rfl
  | cons d ds ih =>
    simp only [defectFailure, firstFailure, defectCheck, ih]
    cases (excludedBox guard width height d).hasArea && b.meets (excludedBox guard width height d) <;> rfl

/-- R5: a box meets what a defect excludes, in the numbers of the slab. -/
theorem meets_excludedBox_iff (cfg : ConfigFields) (c : SlabContents) (r : Rect) (d : Defect) :
    ((excludedBox cfg.guard c.width c.height d).hasArea &&
      (rectBox r).meets (excludedBox cfg.guard c.width c.height d)) = true ↔ meetsDefect cfg c r d := by
  cases h : d.kind <;>
    simp only [excludedBox, h, defectBox, Box.grow, Box.clip, Box.hasArea, Box.meets, rectBox, meetsDefect, guardOf,
      Bool.and_eq_true, decide_eq_true_eq, if_true, reduceCtorEq, if_false] <;>
    omega

/-- R5: the lower-left corner of what a rectangle shares with what a defect excludes. -/
theorem sharedCorner_excludedBox (cfg : ConfigFields) (c : SlabContents) (r : Rect) (d : Defect) :
    (rectBox r).sharedCorner (excludedBox cfg.guard c.width c.height d) =
      ⟨max r.x (d.x - guardOf cfg d), max r.y (d.y - guardOf cfg d)⟩ := by
  cases h : d.kind <;>
    simp only [excludedBox, h, defectBox, Box.grow, Box.clip, Box.sharedCorner, rectBox, guardOf, Point.mk.injEq,
      if_true, reduceCtorEq, if_false] <;>
    omega

/-- R5: a defect passes when the rectangle does not meet what it excludes. -/
theorem defectCheck_eq_none_iff (cfg : ConfigFields) (c : SlabContents) (r : Rect) (i : Nat) (d : Defect) :
    defectCheck cfg.guard c.width c.height (rectBox r) i d = none ↔ ¬ meetsDefect cfg c r d := by
  simp only [defectCheck, meets_excludedBox_iff, ite_eq_right_iff, reduceCtorEq, imp_false]

theorem defectCheck_eq_some {i : Nat} {d : Defect} {f : RegionFailure}
    (h : defectCheck cfg.guard c.width c.height (rectBox r) i d = some f) : meetsDefect cfg c r d ∧
      f = ⟨⟨max r.x (d.x - guardOf cfg d), max r.y (d.y - guardOf cfg d)⟩, some i⟩ := by
  simp only [defectCheck, meets_excludedBox_iff, sharedCorner_excludedBox, Option.ite_none_right_eq_some,
    Option.some.injEq] at h
  exact ⟨h.1, h.2.symm⟩

/-- R5: the order of the region's demands: the inset outline, the corners, the defects. -/
theorem regionFailure_cases (cfg : ConfigFields) (c : SlabContents) (r : Rect) :
    (¬ hasInset cfg c ∧ regionFailure cfg.margin cfg.guard c r = some ⟨⟨r.x, r.y⟩, none⟩) ∨
    (hasInset cfg c ∧ ∃ before q after, rectCorners r = before ++ q :: after ∧ ¬ insideInset cfg c q.1 q.2 ∧
      (∀ b ∈ before, insideInset cfg c b.1 b.2) ∧
      regionFailure cfg.margin cfg.guard c r = some ⟨⟨q.1, q.2⟩, none⟩) ∨
    (hasInset cfg c ∧ (∀ q ∈ rectCorners r, insideInset cfg c q.1 q.2) ∧
      regionFailure cfg.margin cfg.guard c r =
        firstFailure (defectCheck cfg.guard c.width c.height (rectBox r)) 0 c.defects) := by
  have insetTest : (c.width ≤ 2 * cfg.margin || c.height ≤ 2 * cfg.margin) = true ↔ ¬ hasInset cfg c := by
    simp only [hasInset, Bool.or_eq_true, decide_eq_true_eq]
    omega
  by_cases inset : hasInset cfg c
  · refine .inr ?_
    have found := List.find?_map (p := fun p => !insetHolds cfg.margin c.width c.height p)
      (f := fun q : Nat × Nat => (⟨(q.1 : Int), (q.2 : Int)⟩ : Point)) (l := rectCorners r)
    rw [← rectBox_corners] at found
    have passes : ¬ (c.width ≤ 2 * cfg.margin || c.height ≤ 2 * cfg.margin) = true := fun h => insetTest.mp h inset
    simp only [regionFailure, if_neg passes, found]
    cases first : (rectCorners r).find? ((fun p => !insetHolds cfg.margin c.width c.height p) ∘
        fun q : Nat × Nat => (⟨(q.1 : Int), (q.2 : Int)⟩ : Point)) with
    | none =>
      refine .inr ⟨inset, fun q hq => (insetHolds_iff cfg c q.1 q.2).mp ?_, defectFailure_eq_firstFailure ..⟩
      simpa using List.find?_eq_none.mp first q hq
    | some q =>
      obtain ⟨outside, before, after, corners, inside⟩ := List.find?_eq_some_iff_append.mp first
      refine .inl ⟨inset, before, q, after, corners, fun h => ?_, fun b hb => (insetHolds_iff cfg c b.1 b.2).mp ?_, rfl⟩
      · simp [(insetHolds_iff cfg c q.1 q.2).mpr h] at outside
      · simpa using inside b hb
  · exact .inl ⟨inset, by simp only [regionFailure, insetTest, inset, not_false_eq_true, if_true, rectBox]⟩

/-- R5: nothing fails when the rectangle lies within the usable region. -/
theorem regionFailure_eq_none_iff (cfg : ConfigFields) (c : SlabContents) (r : Rect) :
    regionFailure cfg.margin cfg.guard c r = none ↔ usable cfg c r := by
  rcases regionFailure_cases cfg c r with ⟨noInset, h⟩ | ⟨-, before, q, after, corners, outside, -, h⟩ |
    ⟨inset, inside, h⟩
  · simp only [h, usable, noInset, false_and, reduceCtorEq]
  · have hq : q ∈ rectCorners r := by simp [corners]
    simp only [h, reduceCtorEq, false_iff]
    exact fun ⟨_, lower, upper, _⟩ => outside (rectCorners_inside_iff.mpr ⟨lower, upper⟩ q hq)
  · obtain ⟨lower, upper⟩ := rectCorners_inside_iff.mp inside
    simp only [h, firstFailure_eq_none_iff_forall (defectCheck_eq_none_iff cfg c r), usable, inset, lower, upper,
      true_and]

/-- R5: what fails is the region's first failure. -/
theorem firstRegionFailure_of_some {f : RegionFailure} (h : regionFailure cfg.margin cfg.guard c r = some f) :
    firstRegionFailure cfg c r f.coordinate f.defect := by
  rcases regionFailure_cases cfg c r with ⟨noInset, e⟩ | ⟨inset, before, q, after, corners, outside, earlier, e⟩ |
    ⟨inset, inside, e⟩
  · obtain rfl := Option.some.inj (e.symm.trans h)
    exact .inl ⟨noInset, rfl, rfl⟩
  · obtain rfl := Option.some.inj (e.symm.trans h)
    exact .inr (.inl ⟨inset, before, q, after, corners, outside, earlier, rfl, rfl⟩)
  · obtain ⟨before, d, after, defects, earlier, fails⟩ :=
      exists_of_firstFailure_eq_some (defectCheck_eq_none_iff cfg c r) (e.symm.trans h)
    obtain ⟨meets, rfl⟩ := defectCheck_eq_some fails
    exact .inr (.inr ⟨inset, inside, before, d, after, defects, meets, earlier, rfl, rfl⟩)

end Region

/-! ### A plan's items and the turns of their pairs (R53) -/

section Items
variable {p : Plan}

/-- The item at a place in the list of all items. -/
def itemAt (p : Plan) (i : Nat) (r : Rect) : Item := ⟨(itemNamed p i).1, (itemNamed p i).2, r⟩

/-- The place of an item in the list of all items. -/
def Item.place (p : Plan) (x : Item) : Nat := if x.kind = .piece then x.index else p.pieces.length + x.index

@[simp] theorem itemAt_rect (p : Plan) (i : Nat) (r : Rect) : (itemAt p i r).rect = r := rfl

@[simp] theorem place_itemAt (p : Plan) (i : Nat) (r : Rect) : (itemAt p i r).place p = i := by
  simp only [Item.place, itemAt, itemNamed]
  by_cases h : i < p.pieces.length
  · simp [h]
  · simp [h]; omega

/-- The pieces and then the remnants, each under its own index. -/
theorem planItems_eq_mapIdx (p : Plan) : pieceItems p ++ remnantItems p = (itemsOf p).mapIdx (itemAt p) := by
  rw [itemsOf, List.mapIdx_append]
  congr 1
  · refine List.ext_getElem (by simp [pieceItems]) fun i hi _ => ?_
    have inPieces : i < p.pieces.length := by simpa [pieceItems] using hi
    simp [pieceItems, itemAt, itemNamed, inPieces]
  · refine List.ext_getElem (by simp [remnantItems]) fun i _ _ => ?_
    simp [remnantItems, itemAt, itemNamed]

theorem mem_planItems {x : Item} :
    x ∈ pieceItems p ++ remnantItems p ↔ ∃ i r, (itemsOf p)[i]? = some r ∧ x = itemAt p i r := by
  simp only [planItems_eq_mapIdx, List.mem_mapIdx, List.getElem?_eq_some_iff]
  constructor
  · rintro ⟨i, hi, rfl⟩
    exact ⟨i, _, ⟨hi, rfl⟩, rfl⟩
  · rintro ⟨i, _, ⟨hi, rfl⟩, rfl⟩
    exact ⟨i, hi, rfl⟩

/-- The items stand by their places. -/
theorem planItems_sorted (p : Plan) :
    (pieceItems p ++ remnantItems p).Pairwise fun x y => x.place p < y.place p := by
  rw [planItems_eq_mapIdx, List.pairwise_iff_getElem]
  intro i j _ _ hij
  simpa using hij

theorem pieceItems_sorted (p : Plan) : (pieceItems p).Pairwise fun x y => x.place p < y.place p :=
  (List.pairwise_append.mp (planItems_sorted p)).1

theorem remnantItems_sorted (p : Plan) : (remnantItems p).Pairwise fun x y => x.place p < y.place p :=
  (List.pairwise_append.mp (planItems_sorted p)).2.1

theorem place_of_mem_pieceItems {x : Item} (h : x ∈ pieceItems p) : x.place p < p.pieces.length := by
  obtain ⟨i, hi, rfl⟩ := List.mem_mapIdx.mp h
  simpa [Item.place] using hi

theorem place_of_mem_remnantItems {x : Item} (h : x ∈ remnantItems p) : p.pieces.length ≤ x.place p := by
  obtain ⟨i, hi, rfl⟩ := List.mem_mapIdx.mp h
  simp [Item.place]

/-- One pair before another: by the first members' places, and then by the second's. -/
def pairBefore (p : Plan) (u v : Item × Item) : Prop :=
  u.1.place p < v.1.place p ∨ (u.1 = v.1 ∧ u.2.place p < v.2.place p)

/-- R53: the pairs of a sorted list are those of an item and a later one. -/
theorem mem_pairsOf {l : List Item} (sorted : l.Pairwise fun x y => x.place p < y.place p) {u : Item × Item} :
    u ∈ pairsOf l ↔ u.1 ∈ l ∧ u.2 ∈ l ∧ u.1.place p < u.2.place p := by
  obtain ⟨x, y⟩ := u
  induction l with
  | nil => simp [pairsOf]
  | cons a l ih =>
    obtain ⟨later, sorted⟩ := List.pairwise_cons.mp sorted
    simp only [pairsOf, List.mem_append, List.mem_map, Prod.mk.injEq, exists_eq_right_right, ih sorted, List.mem_cons]
    constructor
    · rintro (⟨hy, rfl⟩ | ⟨hx, hy, hlt⟩)
      · exact ⟨.inl rfl, .inr hy, later y hy⟩
      · exact ⟨.inr hx, .inr hy, hlt⟩
    · rintro ⟨rfl | hx, rfl | hy, hlt⟩
      · exact absurd hlt (lt_irrefl _)
      · exact .inl ⟨hy, rfl⟩
      · exact absurd (later x hx) (lt_asymm hlt)
      · exact .inr ⟨hx, hy, hlt⟩

/-- R53: the pairs of a sorted list stand by the first member's place and then the second's. -/
theorem pairsOf_sorted {l : List Item} (sorted : l.Pairwise fun x y => x.place p < y.place p) :
    (pairsOf l).Pairwise (pairBefore p) := by
  induction l with
  | nil => exact .nil
  | cons a l ih =>
    obtain ⟨later, sorted⟩ := List.pairwise_cons.mp sorted
    refine List.pairwise_append.mpr ⟨?_, ih sorted, fun u hu v hv => ?_⟩
    · exact List.pairwise_map.mpr (sorted.imp fun h => .inr ⟨rfl, h⟩)
    · obtain ⟨b, -, rfl⟩ := List.mem_map.mp hu
      exact .inl (later v.1 ((mem_pairsOf sorted).mp hv).1)

/-- R53: the pairs of an item of one sorted list and one of another stand in the same order. -/
theorem product_sorted {l m : List Item} (hl : l.Pairwise fun x y => x.place p < y.place p)
    (hm : m.Pairwise fun x y => x.place p < y.place p) :
    (l.flatMap fun a => m.map fun b => (a, b)).Pairwise (pairBefore p) := by
  refine List.pairwise_flatMap.mpr ⟨fun a _ => ?_, hl.imp fun {a a'} h u hu v hv => ?_⟩
  · exact List.pairwise_map.mpr (hm.imp fun h => .inr ⟨rfl, h⟩)
  · obtain ⟨b, -, rfl⟩ := List.mem_map.mp hu
    obtain ⟨b', -, rfl⟩ := List.mem_map.mp hv
    exact .inl h

/-- R53: every pair of items is taken, the one of the lower place first. -/
theorem mem_kerfPairs {u : Item × Item} : u ∈ kerfPairs p ↔
    u.1 ∈ pieceItems p ++ remnantItems p ∧ u.2 ∈ pieceItems p ++ remnantItems p ∧ u.1.place p < u.2.place p := by
  obtain ⟨x, y⟩ := u
  have across : ∀ {a b}, a ∈ pieceItems p → b ∈ remnantItems p → a.place p < b.place p :=
    fun ha hb => (place_of_mem_pieceItems ha).trans_le (place_of_mem_remnantItems hb)
  simp only [kerfPairs, List.mem_append, mem_pairsOf (pieceItems_sorted p), mem_pairsOf (remnantItems_sorted p),
    List.mem_flatMap, List.mem_map, Prod.mk.injEq, exists_eq_right_right]
  constructor
  · rintro ((⟨hx, hy, hlt⟩ | ⟨hx, hy⟩) | ⟨hx, hy, hlt⟩)
    · exact ⟨.inl hx, .inl hy, hlt⟩
    · exact ⟨.inl hx, .inr hy, across hx hy⟩
    · exact ⟨.inr hx, .inr hy, hlt⟩
  · rintro ⟨hx | hx, hy | hy, hlt⟩
    · exact .inl (.inl ⟨hx, hy, hlt⟩)
    · exact .inl (.inr ⟨hx, hy⟩)
    · exact absurd (across hy hx) (lt_asymm hlt)
    · exact .inr ⟨hx, hy, hlt⟩

/-- The turn of a pair of items. -/
def turnOf (p : Plan) (u : Item × Item) : Nat × Nat × Nat := pairTurn p (u.1.place p) (u.2.place p)

/-- Of two turns at most one comes before the other. -/
theorem not_turnBefore_of_turnBefore {a b : Nat × Nat × Nat} (h : turnBefore a b) : ¬ turnBefore b a := by
  simp only [turnBefore] at *
  omega

/-- R53: the pairs of a kind keep the order of turns. -/
theorem turnBefore_of_pairBefore {u v : Item × Item} (kind : (turnOf p u).1 = (turnOf p v).1) (h : pairBefore p u v) :
    turnBefore (turnOf p u) (turnOf p v) := by
  refine .inr ⟨kind, ?_⟩
  rcases h with h | ⟨hfirst, h⟩
  · exact .inl h
  · exact .inr ⟨congrArg (Item.place p) hfirst, h⟩

/-- R53: the pairs are taken turn by turn. -/
theorem kerfPairs_sorted (p : Plan) : (kerfPairs p).Pairwise fun u v => turnBefore (turnOf p u) (turnOf p v) := by
  have pieces : ∀ u ∈ pairsOf (pieceItems p), (turnOf p u).1 = 0 := fun u hu => by
    have h := place_of_mem_pieceItems ((mem_pairsOf (pieceItems_sorted p)).mp hu).2.1
    simp [turnOf, pairTurn, h]
  have mixed : ∀ u ∈ (pieceItems p).flatMap (fun a => (remnantItems p).map fun b => (a, b)), (turnOf p u).1 = 1 := by
    intro u hu
    obtain ⟨a, ha, b, hb, rfl⟩ : ∃ a ∈ pieceItems p, ∃ b ∈ remnantItems p, (a, b) = u := by
      simpa only [List.mem_flatMap, List.mem_map] using hu
    simp [turnOf, pairTurn, place_of_mem_pieceItems ha, (place_of_mem_remnantItems hb).not_gt]
  have remnants : ∀ u ∈ pairsOf (remnantItems p), (turnOf p u).1 = 2 := fun u hu => by
    obtain ⟨hx, hy, -⟩ := (mem_pairsOf (remnantItems_sorted p)).mp hu
    simp [turnOf, pairTurn, (place_of_mem_remnantItems hx).not_gt, (place_of_mem_remnantItems hy).not_gt]
  refine List.pairwise_append.mpr ⟨List.pairwise_append.mpr ⟨?_, ?_, fun u hu v hv => ?_⟩, ?_, fun u hu v hv => ?_⟩
  · exact (pairsOf_sorted (pieceItems_sorted p)).imp_of_mem fun hu hv =>
      turnBefore_of_pairBefore ((pieces _ hu).trans (pieces _ hv).symm)
  · exact (product_sorted (pieceItems_sorted p) (remnantItems_sorted p)).imp_of_mem fun hu hv =>
      turnBefore_of_pairBefore ((mixed _ hu).trans (mixed _ hv).symm)
  · exact .inl (by rw [pieces u hu, mixed v hv]; omega)
  · exact (pairsOf_sorted (remnantItems_sorted p)).imp_of_mem fun hu hv =>
      turnBefore_of_pairBefore ((remnants _ hu).trans (remnants _ hv).symm)
  · refine .inl ?_
    rw [remnants v hv]
    rcases List.mem_append.mp hu with hu | hu
    · rw [pieces u hu]; omega
    · rw [mixed u hu]; omega

/-- R53: the pair of the items at two places. -/
theorem mem_kerfPairs_iff_places {u : Item × Item} : u ∈ kerfPairs p ↔ ∃ i j a b, i < j ∧
    (itemsOf p)[i]? = some a ∧ (itemsOf p)[j]? = some b ∧ u = (itemAt p i a, itemAt p j b) := by
  obtain ⟨x, y⟩ := u
  simp only [mem_kerfPairs, mem_planItems]
  constructor
  · rintro ⟨⟨i, a, ha, rfl⟩, ⟨j, b, hb, rfl⟩, hlt⟩
    exact ⟨i, j, a, b, by simpa using hlt, ha, hb, rfl⟩
  · rintro ⟨i, j, a, b, hij, ha, hb, hu⟩
    obtain ⟨rfl, rfl⟩ := Prod.mk.inj hu
    exact ⟨⟨i, a, ha, rfl⟩, ⟨j, b, hb, rfl⟩, by simpa using hij⟩

end Items

/-! ### The gap between two items (R53) -/

/-- R53: the gap test in the numbers of the plan. -/
theorem clearOf_iff (kerf : Nat) (a b : Rect) : clearOf kerf (rectBox a) (rectBox b) = true ↔ apart kerf a b := by
  simp only [clearOf, Bool.or_eq_true, decide_eq_true_eq]
  simp only [axisGap, rectBox, apart]
  omega

theorem pairFailure_eq_none_iff (kerf : Nat) (u : Item × Item) :
    pairFailure kerf u = none ↔ apart kerf u.1.rect u.2.rect := by
  simp only [pairFailure, clearOf_iff, ite_eq_left_iff, reduceCtorEq, imp_false, not_not]

/-- R53: the rejection of the items at two places, the later one the item and the earlier its partner. -/
theorem pairFailure_itemAt_of_not_apart {kerf : Nat} {p : Plan} {i j : Nat} {a b : Rect} (close : ¬ apart kerf a b) :
    pairFailure kerf (itemAt p i a, itemAt p j b) = some ⟨5, (itemNamed p j).1, (itemNamed p j).2,
      some (itemNamed p i), some ⟨max b.x (a.x - kerf), max b.y (a.y - kerf)⟩, none⟩ := by
  simp only [pairFailure, itemAt_rect, clearOf_iff, close, if_false]
  rfl

end Sys2Proof.Machine

/-! PROOF. What each of checks 1 to 8 asks and answers, and the order they are taken in (R50 to R56, R59). -/

namespace Sys2Proof.Machine

open Sys2Proof Sys2Proof.Safety

/-- R50, R59: a check's answer on a plan: none exactly when the plan passes, otherwise the record its rule gives. -/
structure Judges (s : State) (p : Plan) (n : Nat) (answer : Option Rejection) : Prop where
  passes : answer = none ↔ checkPasses s p n
  rejects : ∀ w, answer = some w → w.check = n ∧ rejectionFits s p w

/-! ### Checks 1 and 2 (R51) -/

theorem judges_checkSlab (s : State) (p : Plan) : Judges s p 1 (checkSlab s p) := by
  have answer : checkSlab s p = none ∨ checkSlab s p = some (plainRejection 1 .slab 0) := by
    unfold checkSlab
    split
    · exact .inr rfl
    · split
      · exact .inr rfl
      · exact .inl rfl
  constructor
  · cases h : findSlab s p.slab with
    | none => simp [checkSlab, checkPasses, h]
    | some r => simp [checkSlab, checkPasses, h]
  · rintro w hw
    rcases answer with accepted | rejected
    · simp [accepted] at hw
    · obtain rfl := Option.some.inj (rejected.symm.trans hw)
      exact ⟨rfl, rfl, rfl, rfl, rfl, rfl⟩

theorem judges_checkLists (s : State) (p : Plan) : Judges s p 2 (checkLists p) := by
  cases hp : p.pieces with
  | nil =>
    have answer : checkLists p = some (plainRejection 2 .piece 0) := by simp [checkLists, hp]
    refine ⟨by simp [answer, checkPasses, hp], fun w hw => ?_⟩
    obtain rfl := Option.some.inj (answer.symm.trans hw)
    exact ⟨rfl, by simp [plainRejection, hp], rfl, rfl, rfl, rfl⟩
  | cons e rest =>
    cases hg : p.segments with
    | nil =>
      have answer : checkLists p = some (plainRejection 2 .segment 0) := by simp [checkLists, hp, hg]
      refine ⟨by simp [answer, checkPasses, hg], fun w hw => ?_⟩
      obtain rfl := Option.some.inj (answer.symm.trans hw)
      exact ⟨rfl, by simp [plainRejection, hp], rfl, rfl, rfl, rfl⟩
    | cons g _ =>
      have answer : checkLists p = none := by simp [checkLists, hp, hg]
      exact ⟨by simp [answer, checkPasses, hp, hg], by simp [answer]⟩

/-! ### Checks 3 and 4 (R52) -/

theorem checkRegion_eq_none_iff (cfg : ConfigFields) (c : SlabContents) (check : Nat) (kind : ItemKind) (i : Nat)
    (r : Rect) : checkRegion cfg c check kind i r = none ↔ usable cfg c r := by
  rw [checkRegion, Option.map_eq_none_iff, regionFailure_eq_none_iff]

theorem exists_of_checkRegion_eq_some {cfg : ConfigFields} {c : SlabContents} {check : Nat} {kind : ItemKind}
    {i : Nat} {r : Rect} {w : Rejection} (h : checkRegion cfg c check kind i r = some w) :
    ∃ at' d, firstRegionFailure cfg c r at' d ∧ w = ⟨check, kind, i, none, some at', d⟩ := by
  obtain ⟨f, found, rfl⟩ := Option.map_eq_some_iff.mp h
  exact ⟨f.coordinate, f.defect, firstRegionFailure_of_some found, rfl⟩

theorem judges_checkPieces (s : State) (p : Plan) :
    Judges s p 3 (checkPieces s.settings.cfg (contentsOf s p.slab) p) := by
  have each := fun i (e : PieceEntry) =>
    checkRegion_eq_none_iff s.settings.cfg (contentsOf s p.slab) 3 .piece i e.rect
  rw [checkPieces, firstFailure_map]
  refine ⟨firstFailure_eq_none_iff_forall each 0 p.pieces, fun w hw => ?_⟩
  obtain ⟨before, e, after, pieces, earlier, fails⟩ := exists_of_firstFailure_eq_some each hw
  obtain ⟨at', d, region, rfl⟩ := exists_of_checkRegion_eq_some fails
  exact ⟨rfl, rfl, rfl, before, e, after, at', pieces, rfl, earlier, rfl, region⟩

theorem judges_checkRemnants (s : State) (p : Plan) :
    Judges s p 4 (checkRemnants s.settings.cfg (contentsOf s p.slab) p) := by
  have each := checkRegion_eq_none_iff s.settings.cfg (contentsOf s p.slab) 4 .remnant
  refine ⟨firstFailure_eq_none_iff_forall each 0 p.remnants, fun w hw => ?_⟩
  obtain ⟨before, r, after, remnants, earlier, fails⟩ := exists_of_firstFailure_eq_some each hw
  obtain ⟨at', d, region, rfl⟩ := exists_of_checkRegion_eq_some fails
  exact ⟨rfl, rfl, rfl, before, r, after, at', remnants, rfl, earlier, rfl, region⟩

/-! ### Check 5 (R53) -/

/-- R53: the items are pairwise apart when every pair that is taken is. -/
theorem pairwise_apart_iff (kerf : Nat) (p : Plan) :
    (itemsOf p).Pairwise (apart kerf) ↔ ∀ u ∈ kerfPairs p, apart kerf u.1.rect u.2.rect := by
  rw [List.pairwise_iff_getElem]
  constructor
  · intro h u hu
    obtain ⟨i, j, a, b, hij, ha, hb, rfl⟩ := mem_kerfPairs_iff_places.mp hu
    obtain ⟨hi, rfl⟩ := List.getElem?_eq_some_iff.mp ha
    obtain ⟨hj, rfl⟩ := List.getElem?_eq_some_iff.mp hb
    exact h i j hi hj hij
  · intro h i j hi hj hij
    exact h _ (mem_kerfPairs_iff_places.mpr
      ⟨i, j, _, _, hij, List.getElem?_eq_getElem hi, List.getElem?_eq_getElem hj, rfl⟩)

/-- R53: a pair whose turn comes before another's is taken before it. -/
theorem mem_before_of_turnBefore {p : Plan} {before after : List (Item × Item)} {u v : Item × Item}
    (pairs : kerfPairs p = before ++ u :: after) (hv : v ∈ kerfPairs p) (h : turnBefore (turnOf p v) (turnOf p u)) :
    v ∈ before := by
  have sorted := kerfPairs_sorted p
  rw [pairs] at sorted hv
  obtain ⟨later, -⟩ := List.pairwise_cons.mp (List.pairwise_append.mp sorted).2.1
  rcases List.mem_append.mp hv with hv | hv
  · exact hv
  · rcases List.mem_cons.mp hv with rfl | hv
    · exact absurd h (not_turnBefore_of_turnBefore h)
    · exact absurd h (not_turnBefore_of_turnBefore (later v hv))

theorem judges_checkKerf (s : State) (p : Plan) : Judges s p 5 (checkKerf s.settings.cfg p) := by
  refine ⟨?_, fun w hw => ?_⟩
  · simp only [checkKerf, List.findSome?_eq_none_iff, pairFailure_eq_none_iff, checkPasses, pairwise_apart_iff]
  · obtain ⟨before, u, after, pairs, fails, earlier⟩ := List.findSome?_eq_some_iff.mp hw
    obtain ⟨i, j, a, b, hij, ha, hb, rfl⟩ :=
      mem_kerfPairs_iff_places.mp (show u ∈ kerfPairs p by simp [pairs])
    have close : ¬ apart s.settings.cfg.kerf a b := fun h => by
      rw [(pairFailure_eq_none_iff s.settings.cfg.kerf (itemAt p i a, itemAt p j b)).mpr h] at fails
      cases fails
    obtain rfl := Option.some.inj ((pairFailure_itemAt_of_not_apart close).symm.trans fails)
    refine ⟨rfl, rfl, i, j, a, b, hij, ha, hb, close, fun i' j' a' b' hij' ha' hb' turn => ?_, rfl, rfl, rfl⟩
    have taken := mem_before_of_turnBefore pairs (v := (itemAt p i' a', itemAt p j' b'))
      (mem_kerfPairs_iff_places.mpr ⟨i', j', a', b', hij', ha', hb', rfl⟩)
      (by simpa only [turnOf, place_itemAt] using turn)
    exact (pairFailure_eq_none_iff _ _).mp (earlier _ taken)

/-! ### Check 6 (R54) -/

theorem inAllowance_iff (c : SlabContents) (q : Point) : inAllowance c.width c.height q = true ↔ allowed c q := by
  simp only [inAllowance, allowed, Bool.and_eq_true, decide_eq_true_eq, and_assoc]

/-- R54: a segment off its axis, or of no length, fails at its start. -/
theorem segmentFailure_of_not_straight {c : SlabContents} {g : Segment} (h : ¬ straight g) :
    segmentFailure c g = some g.start := by
  cases kind : g.kind with
  | rip =>
    simp only [straight, kind, not_and, not_not] at h
    by_cases axis : g.start.y = g.stop.y
    · simp [segmentFailure, kind, pathLength, axis, h axis]
    · simp [segmentFailure, kind, axis]
  | cross =>
    simp only [straight, kind, not_and, not_not] at h
    by_cases axis : g.start.x = g.stop.x
    · simp [segmentFailure, kind, pathLength, axis, h axis]
    · simp [segmentFailure, kind, axis]

/-- R54: a straight segment is held to the allowance at its start and at its end, and then to the thickness. -/
theorem segmentFailure_of_straight {c : SlabContents} {g : Segment} (h : straight g) :
    segmentFailure c g =
      if !inAllowance c.width c.height g.start then some g.start
      else if !inAllowance c.width c.height g.stop then some g.stop
      else if g.depth.any (c.thickness < ·) then some g.start else none := by
  cases kind : g.kind with
  | rip =>
    simp only [straight, kind] at h
    have long : ¬ (g.stop.x - g.start.x).natAbs < 1 := by omega
    simp only [segmentFailure, kind, pathLength, h.1, beq_self_eq_true, Bool.not_true, if_neg long, Bool.false_eq_true,
      if_false]
  | cross =>
    simp only [straight, kind] at h
    have long : ¬ (g.stop.y - g.start.y).natAbs < 1 := by omega
    simp only [segmentFailure, kind, pathLength, h.1, beq_self_eq_true, Bool.not_true, if_neg long, Bool.false_eq_true,
      if_false]

/-- R54: what a segment's first breach is. -/
theorem segmentFailure_cases (c : SlabContents) (g : Segment) :
    (segmentSuits c g ∧ segmentFailure c g = none) ∨
    (straight g ∧ allowed c g.start ∧ ¬ allowed c g.stop ∧ segmentFailure c g = some g.stop) ∨
    (¬ segmentSuits c g ∧ (¬ straight g ∨ ¬ allowed c g.start ∨ allowed c g.stop) ∧
      segmentFailure c g = some g.start) := by
  by_cases axis : straight g
  swap
  · exact .inr (.inr ⟨fun ⟨suits, _⟩ => axis suits, .inl axis, segmentFailure_of_not_straight axis⟩)
  have start := inAllowance_iff c g.start
  have stop := inAllowance_iff c g.stop
  have depth : g.depth.any (c.thickness < ·) = true ↔ ¬ ∀ d ∈ g.depth, d ≤ c.thickness := by cases g.depth <;> simp
  rw [segmentFailure_of_straight axis]
  cases hstart : inAllowance c.width c.height g.start with
  | false =>
    have out : ¬ allowed c g.start := by simpa [hstart] using start
    exact .inr (.inr ⟨fun ⟨_, inside, _⟩ => out inside, .inr (.inl out), rfl⟩)
  | true =>
    cases hstop : inAllowance c.width c.height g.stop with
    | false => exact .inr (.inl ⟨axis, start.mp hstart, by simpa [hstop] using stop, rfl⟩)
    | true =>
      cases hdepth : g.depth.any (c.thickness < ·) with
      | false =>
        have shallow : ∀ d ∈ g.depth, d ≤ c.thickness := by simpa [hdepth] using depth
        exact .inl ⟨⟨axis, start.mp hstart, stop.mp hstop, shallow⟩, rfl⟩
      | true => exact .inr (.inr ⟨fun ⟨_, _, _, shallow⟩ => depth.mp hdepth shallow, .inr (.inr (stop.mp hstop)), rfl⟩)

theorem segmentFailure_eq_none_iff (c : SlabContents) (g : Segment) :
    segmentFailure c g = none ↔ segmentSuits c g := by
  rcases segmentFailure_cases c g with ⟨suits, h⟩ | ⟨-, -, out, h⟩ | ⟨unfit, -, h⟩
  · simp [h, suits]
  · simp only [h, reduceCtorEq, false_iff]
    exact fun ⟨_, _, inside, _⟩ => out inside
  · simp [h, unfit]

theorem judges_checkSegments (s : State) (p : Plan) : Judges s p 6 (checkSegments (contentsOf s p.slab) p) := by
  have each : ∀ (i : Nat) (g : Segment), (segmentFailure (contentsOf s p.slab) g).map
      (fun at' => Rejection.mk 6 .segment i none (some at') none) = none ↔ segmentSuits (contentsOf s p.slab) g :=
    fun i g => by rw [Option.map_eq_none_iff, segmentFailure_eq_none_iff]
  refine ⟨firstFailure_eq_none_iff_forall each 0 p.segments, fun w hw => ?_⟩
  obtain ⟨before, g, after, segments, earlier, fails⟩ := exists_of_firstFailure_eq_some each hw
  obtain ⟨at', breach, rfl⟩ := Option.map_eq_some_iff.mp fails
  have fits : ¬ segmentSuits (contentsOf s p.slab) g ∧
      (straight g → allowed (contentsOf s p.slab) g.start → ¬ allowed (contentsOf s p.slab) g.stop →
        some at' = some g.stop) ∧
      ((¬ straight g ∨ ¬ allowed (contentsOf s p.slab) g.start ∨ allowed (contentsOf s p.slab) g.stop) →
        some at' = some g.start) := by
    rw [← breach]
    rcases segmentFailure_cases (contentsOf s p.slab) g with ⟨-, h⟩ | ⟨axis, start, stop, h⟩ | ⟨unfit, which, h⟩
    · simp [h] at breach
    · exact ⟨fun ⟨_, _, inside, _⟩ => stop inside, fun _ _ _ => h, by simp [axis, start, stop]⟩
    · exact ⟨unfit, fun axis start stop => by simp [axis, start, stop] at which, fun _ => h⟩
  exact ⟨rfl, rfl, rfl, rfl, before, g, after, segments, rfl, earlier, fits⟩

/-! ### Check 7 (R55) -/

/-- R55: a band meets an item in half millimetres as it does in the numbers of the plan. -/
theorem kerfBand_meets_iff (kerf : Nat) (g : Segment) (r : Rect) :
    (kerfBand kerf g).meets (rectHalfBox r) = true ↔ bandMeets kerf g r := by
  cases kind : g.kind <;>
    simp only [kerfBand, rectHalfBox, Box.meets, bandMeets, kind, Bool.and_eq_true, decide_eq_true_eq] <;> omega

/-- R55: the corner of what a band shares with an item, in whole millimetres. -/
theorem halfPoint_sharedCorner (kerf : Nat) (g : Segment) (r : Rect) :
    halfPoint ((kerfBand kerf g).sharedCorner (rectHalfBox r)) = bandCorner kerf g r := by
  cases kind : g.kind <;>
    simp only [halfPoint, kerfBand, rectHalfBox, Box.sharedCorner, bandCorner, kind, Point.mk.injEq] <;> omega

theorem bandFailure_eq_none_iff (kerf i : Nat) (g : Segment) (x : Item) :
    bandFailure kerf i g x = none ↔ ¬ bandMeets kerf g x.rect := by
  simp only [bandFailure, kerfBand_meets_iff, ite_eq_right_iff, reduceCtorEq, imp_false]

theorem bandFailure_eq_some {kerf i : Nat} {g : Segment} {x : Item} {w : Rejection}
    (h : bandFailure kerf i g x = some w) : bandMeets kerf g x.rect ∧
      w = ⟨7, .segment, i, some (x.kind, x.index), some (bandCorner kerf g x.rect), none⟩ := by
  simp only [bandFailure, kerfBand_meets_iff, halfPoint_sharedCorner, Option.ite_none_right_eq_some,
    Option.some.injEq] at h
  exact ⟨h.1, h.2.symm⟩

/-- R55: a segment is tried against the items in the order of their places. -/
theorem findSome?_bandFailure (kerf i : Nat) (g : Segment) (p : Plan) :
    (pieceItems p ++ remnantItems p).findSome? (bandFailure kerf i g) =
      firstFailure (fun k r => bandFailure kerf i g (itemAt p k r)) 0 (itemsOf p) := by
  rw [planItems_eq_mapIdx, findSome?_mapIdx_eq_firstFailure]

theorem judges_checkBands (s : State) (p : Plan) : Judges s p 7 (checkBands s.settings.cfg p) := by
  have item : ∀ (i : Nat) (g : Segment) (k : Nat) (r : Rect),
      bandFailure s.settings.cfg.kerf i g (itemAt p k r) = none ↔ ¬ bandMeets s.settings.cfg.kerf g r :=
    fun i g k r => bandFailure_eq_none_iff s.settings.cfg.kerf i g (itemAt p k r)
  have each : ∀ (i : Nat) (g : Segment),
      (pieceItems p ++ remnantItems p).findSome? (bandFailure s.settings.cfg.kerf i g) = none ↔
        ∀ r ∈ itemsOf p, ¬ bandMeets s.settings.cfg.kerf g r :=
    fun i g => by rw [findSome?_bandFailure, firstFailure_eq_none_iff_forall (item i g)]
  refine ⟨firstFailure_eq_none_iff_forall each 0 p.segments, fun w hw => ?_⟩
  obtain ⟨before, g, after, segments, earlier, fails⟩ := exists_of_firstFailure_eq_some each hw
  rw [findSome?_bandFailure] at fails
  obtain ⟨lower, r, higher, items, clear, met⟩ := exists_of_firstFailure_eq_some (item before.length g) fails
  obtain ⟨meets, rfl⟩ := bandFailure_eq_some met
  refine ⟨rfl, rfl, rfl, before, g, after, lower.length, r, segments, rfl, earlier, by simp [items], meets,
    fun k hk q hq => clear q ?_, rfl, rfl⟩
  rw [items, List.getElem?_append_left hk] at hq
  exact List.mem_of_getElem? hq

/-! ### Check 8 (R56) -/

theorem judges_checkIndices (s : State) (p : Plan) : Judges s p 8 (checkIndices p) := by
  have each : ∀ (i : Nat) (g : Segment),
      (if p.pieces.length ≤ g.piece then some (plainRejection 8 .segment i) else none) = none ↔
        g.piece < p.pieces.length :=
    fun i g => by simp only [ite_eq_right_iff, reduceCtorEq, imp_false, not_le]
  refine ⟨firstFailure_eq_none_iff_forall each 0 p.segments, fun w hw => ?_⟩
  obtain ⟨before, g, after, segments, earlier, fails⟩ := exists_of_firstFailure_eq_some each hw
  obtain ⟨high, rfl⟩ : p.pieces.length ≤ g.piece ∧ plainRejection 8 .segment before.length = w := by
    simpa only [Option.ite_none_right_eq_some, Option.some.injEq] using fails
  exact ⟨rfl, rfl, ⟨rfl, rfl, rfl⟩, before, g, after, segments, rfl, earlier, high⟩

/-! ### The checks in order (R50) -/

/-- R50: the answer of the checks from number `n` on: none when all pass, otherwise the record of the first that fails. -/
structure JudgedFrom (s : State) (p : Plan) (n : Nat) (answer : Option Rejection) : Prop where
  passes : answer = none → ∀ k, n ≤ k → checkPasses s p k
  rejects : ∀ w, answer = some w → n ≤ w.check ∧ w.check ≤ 8 ∧ (∀ k, n ≤ k → k < w.check → checkPasses s p k) ∧
    ¬ checkPasses s p w.check ∧ rejectionFits s p w

/-- R50: past check 8 nothing is asked of the plan itself. -/
theorem checkPasses_of_gt {s : State} {p : Plan} {k : Nat} (h : 8 < k) : checkPasses s p k := by
  obtain ⟨m, rfl⟩ := Nat.exists_eq_add_of_lt h
  rw [Nat.add_comm 8 m]
  trivial

theorem judgedFrom_nil (s : State) (p : Plan) : JudgedFrom s p 9 (List.findSome? (fun r => r) []) :=
  ⟨fun _ _ h => checkPasses_of_gt h, by simp⟩

/-- R50: a check is taken before those after it. -/
theorem JudgedFrom.cons {s : State} {p : Plan} {n : Nat} {answer : Option Rejection} {rest : List (Option Rejection)}
    (bound : n ≤ 8) (first : Judges s p n answer) (later : JudgedFrom s p (n + 1) (rest.findSome? fun r => r)) :
    JudgedFrom s p n ((answer :: rest).findSome? fun r => r) := by
  cases answer with
  | some w =>
    obtain ⟨rfl, fits⟩ := first.rejects w rfl
    have fails : ¬ checkPasses s p w.check := fun h => by simpa using first.passes.mpr h
    refine ⟨by simp, fun w' hw => ?_⟩
    obtain rfl : w = w' := by simpa using hw
    exact ⟨le_rfl, bound, fun k hk hlt => absurd hk (not_le.mpr hlt), fails, fits⟩
  | none =>
    have pass : checkPasses s p n := first.passes.mp rfl
    have split : ∀ {k}, n ≤ k → k = n ∨ n + 1 ≤ k := by omega
    rw [List.findSome?_cons]
    refine ⟨fun h k hk => ?_, fun w hw => ?_⟩
    · rcases split hk with rfl | hk
      · exact pass
      · exact later.passes h k hk
    · obtain ⟨from', upTo, earlier, fails, fits⟩ := later.rejects w hw
      refine ⟨by omega, upTo, fun k hk hlt => ?_, fails, fits⟩
      rcases split hk with rfl | hk
      · exact pass
      · exact earlier k hk hlt

/-- R50: the eight checks of a plan, in order. -/
theorem judgedFrom_judgePlan (s : State) (p : Plan) : JudgedFrom s p 1 (judgePlan s p) :=
  .cons (by omega) (judges_checkSlab s p) <| .cons (by omega) (judges_checkLists s p) <|
  .cons (by omega) (judges_checkPieces s p) <| .cons (by omega) (judges_checkRemnants s p) <|
  .cons (by omega) (judges_checkKerf s p) <| .cons (by omega) (judges_checkSegments s p) <|
  .cons (by omega) (judges_checkBands s p) <| .cons (by omega) (judges_checkIndices s p) <| judgedFrom_nil s p

/-- R50: there is no check 0. -/
theorem checkPasses_zero (s : State) (p : Plan) : checkPasses s p 0 := trivial

/-- R50: a plan is not rejected exactly when it passes every check. -/
theorem judgePlan_eq_none_iff (s : State) (p : Plan) : judgePlan s p = none ↔ ∀ n, checkPasses s p n := by
  have judged := judgedFrom_judgePlan s p
  refine ⟨fun h n => ?_, fun h => ?_⟩
  · rcases Nat.eq_zero_or_pos n with rfl | hn
    · exact checkPasses_zero s p
    · exact judged.passes h n hn
  · rw [Option.eq_none_iff_forall_ne_some]
    intro w hw
    obtain ⟨-, -, -, fails, -⟩ := judged.rejects w hw
    exact fails (h w.check)

/-- R50, R59: a plan is rejected by the first check that fails, with that check's record. -/
theorem judgePlan_eq_some {s : State} {p : Plan} {w : Rejection} (h : judgePlan s p = some w) :
    1 ≤ w.check ∧ w.check ≤ 8 ∧ (∀ n < w.check, checkPasses s p n) ∧ ¬ checkPasses s p w.check ∧
      rejectionFits s p w := by
  obtain ⟨from', upTo, earlier, fails, fits⟩ := (judgedFrom_judgePlan s p).rejects w h
  refine ⟨from', upTo, fun n hn => ?_, fails, fits⟩
  rcases Nat.eq_zero_or_pos n with rfl | hpos
  · exact checkPasses_zero s p
  · exact earlier n hpos hn

/-! ### Check 10 (R58) -/

/-- R142: a job is present and OPEN. -/
theorem jobOpen_iff (s : State) (number : Nat) :
    jobOpen s number = true ↔ ∃ j, findJob s number = some j ∧ j.closed = false := by
  simp only [jobOpen, Option.any_eq_true, Bool.not_eq_true']

theorem checkJob_eq_none_iff (s : State) (i : Nat) (e : PieceEntry) :
    (if jobOpen s e.job then none else some (plainRejection 10 .job i)) = none ↔
      ∃ j, findJob s e.job = some j ∧ j.closed = false := by
  simp only [ite_eq_left_iff, reduceCtorEq, imp_false, not_not, jobOpen_iff]

theorem checkJobs_eq_none_iff (s : State) (p : Plan) :
    checkJobs s p = none ↔ ∀ e ∈ p.pieces, ∃ j, findJob s e.job = some j ∧ j.closed = false :=
  firstFailure_eq_none_iff_forall (checkJob_eq_none_iff s) 0 p.pieces

theorem checkJobs_eq_some {s : State} {p : Plan} {w : Rejection} (h : checkJobs s p = some w) :
    ∃ before e after, p.pieces = before ++ e :: after ∧
      (∀ b ∈ before, ∃ j, findJob s b.job = some j ∧ j.closed = false) ∧
      ¬ (∃ j, findJob s e.job = some j ∧ j.closed = false) ∧ w = ⟨10, .job, before.length, none, none, none⟩ := by
  obtain ⟨before, e, after, pieces, earlier, fails⟩ := exists_of_firstFailure_eq_some (checkJob_eq_none_iff s) h
  obtain ⟨closed, rfl⟩ : ¬ jobOpen s e.job = true ∧ plainRejection 10 .job before.length = w := by
    simpa only [Option.ite_none_left_eq_some, Option.some.injEq] using fails
  exact ⟨before, e, after, pieces, earlier, (jobOpen_iff s e.job).not.mp closed, rfl⟩

end Sys2Proof.Machine

/-! PROOF. PLAN END: its outcomes, and the estimate of a VALID plan (R49, R50, R57 to R61, R106). -/

namespace Sys2Proof.Machine

open Sys2Proof Sys2Proof.Safety

/-! ### Reservations (R10) -/

/-- R10: reservations added. -/
def addReservations (n : Nat) (s : State) : State :=
  { s with register := { s.register with reservations := s.register.reservations + n } }

theorem reserve_of_room {n : Nat} {s : State} (h : n ≤ placesOnOffer s) :
    reserve n s = some (addReservations n (evictUntil n n s)) := if_pos h

theorem reserve_of_no_room {n : Nat} {s : State} (h : placesOnOffer s < n) : reserve n s = none :=
  if_neg (not_le.mpr h)

/-- R10: reservations given up as they were taken leave the register as it was. -/
theorem dropReservations_addReservations (n : Nat) (s : State) : dropReservations n (addReservations n s) = s := by
  simp only [dropReservations, addReservations, Nat.add_sub_cancel]

/-- R10: eviction leaves the settings alone. -/
theorem evictUntil_settings (n fuel : Nat) (s : State) : (evictUntil n fuel s).settings = s.settings := by
  rw [evictUntil_frame]

/-- R10: eviction leaves the cost table alone. -/
theorem evictUntil_jobs (n fuel : Nat) (s : State) : (evictUntil n fuel s).jobs = s.jobs := by
  rw [evictUntil_frame]

/-- R58: check 10 looks at the cost table alone. -/
theorem checkJobs_congr {s t : State} (h : t.jobs = s.jobs) (p : Plan) : checkJobs t p = checkJobs s p := by
  have jobs : jobOpen t = jobOpen s := funext fun number => by simp only [jobOpen, findJob, h]
  rw [checkJobs, checkJobs, jobs]

/-- R58: taking reservations leaves check 10 as it is. -/
theorem checkJobs_reserved (n : Nat) (p : Plan) (s : State) :
    checkJobs (addReservations n (evictUntil n n s)) p = checkJobs s p :=
  checkJobs_congr (evictUntil_jobs n n s) p

/-! ### Validation (R50) -/

section Validate
variable {s : State} {p : Plan} {why : Rejection}

/-- R50: a plan that fails one of checks 1 to 8 is REJECTED. -/
theorem validatePlan_of_judged (judged : judgePlan s p = some why) : validatePlan p s = rejectPlan p why s := by
  simp only [validatePlan, judged]

/-- R57: check 9 fails when the register cannot offer the places. -/
theorem validatePlan_of_no_room (passed : judgePlan s p = none) (room : placesOnOffer s < p.remnants.length) :
    validatePlan p s = rejectPlan p (plainRejection 9 .remnant (placesOnOffer s)) s := by
  simp only [validatePlan, passed, reserve_of_no_room room]

/-- R58: at check 10 the reservations are given up again, and what they took stays evicted. -/
theorem validatePlan_of_job (passed : judgePlan s p = none) (room : p.remnants.length ≤ placesOnOffer s)
    (jobs : checkJobs s p = some why) :
    validatePlan p s = rejectPlan p why (evictUntil p.remnants.length p.remnants.length s) := by
  simp only [validatePlan, passed, reserve_of_room room, checkJobs_reserved, jobs, dropReservations_addReservations]

/-- R60: a plan that passes all ten checks goes VALID with its reservations. -/
theorem validatePlan_of_passed (passed : judgePlan s p = none) (room : p.remnants.length ≤ placesOnOffer s)
    (jobs : checkJobs s p = none) : validatePlan p s =
      acceptPlan p (addReservations p.remnants.length (evictUntil p.remnants.length p.remnants.length s)) := by
  simp only [validatePlan, passed, reserve_of_room room, checkJobs_reserved, jobs]

end Validate

/-- R60, R61: what a plan accepted on its reservations holds. -/
theorem acceptPlan_addReservations {cfg : ConfigFields} {u : State} (h : u.settings.cfg = cfg) (p : Plan) (n : Nat) :
    let e := estimateOf cfg (contentsOf u p.slab) p
    acceptPlan p (addReservations n u) = reports (validFrames p e) (holdJobs (distinctJobs p.pieces) { u with
      staged := .valid { p with estimate := some e, reservations := p.remnants.length }
      register := { u.register with reservations := u.register.reservations + n } }) := by
  subst h
  rfl

/-! ### PLAN END (R49) -/

section PlanEnd
variable {s : State} {p : Plan}

theorem runPlanEnd_of_empty (h : s.staged = .empty) : runPlanEnd s = refuse 0x0A .noPlan s := by
  simp only [runPlanEnd, h]

theorem runPlanEnd_of_loading (h : s.staged = .loading p) : runPlanEnd s = validatePlan p (accept 0x0A s) := by
  simp only [runPlanEnd, h]

theorem runPlanEnd_of_valid {e : Estimate} (h : s.staged = .valid p) (estimate : p.estimate = some e) :
    runPlanEnd s = reports (validFrames p e) (accept 0x0A s) := by
  simp only [runPlanEnd, h, estimate, Option.elim]

theorem runPlanEnd_of_rejected {why : Rejection} (h : s.staged = .rejected p why) :
    runPlanEnd s = report (.planRejected p.number why) (accept 0x0A s) := by
  simp only [runPlanEnd, h]

theorem runPlanEnd_of_stale {cause : StaleCause} (h : s.staged = .stale p cause) :
    runPlanEnd s = report (.planStale p.number p.slab cause) (accept 0x0A s) := by
  simp only [runPlanEnd, h]

/-- R49, R171: PLAN END taken from the head of the inbound queue. -/
theorem exec_planEnd_of_ready (h : ready .planEnd s) :
    exec .planEnd s = .next (launchWrite (runPlanEnd (popInbound s))) := takeCommand_of_ready h

/-- R49, R50: PLAN END on a LOADING slot is its validation, once it is accepted. -/
theorem exec_planEnd_of_loading (h : ready .planEnd s) (loading : s.staged = .loading p) :
    exec .planEnd s = .next (launchWrite (validatePlan p (acceptedBy 0x0A s))) := by
  rw [exec_planEnd_of_ready h, runPlanEnd_of_loading (s := popInbound s) loading, accept_popInbound 0x0A h.2]

end PlanEnd

/-! ### The estimate (R61, R106) -/

/-- R61: a job line sums over the segments its job pays for. -/
theorem filter_estimateSegment (cfg : ConfigFields) (c : SlabContents) (p : Plan) (job : Nat) :
    (p.segments.map (estimateSegment cfg c p)).filter (·.job == job) =
      (p.segments.filter fun g => (p.pieces.getD g.piece default).job == job).map (estimateSegment cfg c p) := by
  rw [List.filter_map]
  rfl

/-- R61: a sum over the worked segments is one over the segments. -/
theorem map_estimateSegment (cfg : ConfigFields) (c : SlabContents) (p : Plan) (figure : SegmentEstimate → Nat)
    (segments : List Segment) : (segments.map (estimateSegment cfg c p)).map figure =
      segments.map fun g => figure (estimateSegment cfg c p g) := List.map_map ..

/-- R100: expected water is the least number of decilitres that covers the product. -/
theorem expectedWater_isLeast (q t : Nat) : IsLeast { n : Nat | q * t ≤ n * 60 } (expectedWater q t) :=
  ceilDiv_isLeast (q * t) 60 (by omega)

end Sys2Proof.Machine

namespace Sys2Proof.Proofs

open Sys2Proof Sys2Proof.Machine Sys2Proof.Safety

/-- Settles O37: PLAN END by the state of the slot and the outcome of its validation, the checks by the answer of each,
and the estimate by its sums over the segments. -/
theorem planEndValidatesOrRepeats : Obligations.PlanEndValidatesOrRepeats := by
  refine ⟨fun s hready => ⟨fun empty => ?_, fun p why loading judged => ?_, fun p loading passed room => ?_,
    fun p why loading passed room jobs => ?_, fun p loading passed room jobs => ?_, fun p e valid estimate => ?_,
    fun p why rejected => ?_, fun p cause stale => ?_⟩,
    fun s p => ⟨judgePlan_eq_none_iff s p, fun w => judgePlan_eq_some, checkJobs_eq_none_iff s p,
      fun w => checkJobs_eq_some⟩,
    fun cfg c p => ⟨?_, ?_, ?_, ?_, ?_, rfl, expectedWater_isLeast⟩⟩
  · rw [exec_planEnd_of_ready hready, runPlanEnd_of_empty (s := popInbound s) empty,
      refuse_popInbound 0x0A .noPlan hready.2]
  · rw [exec_planEnd_of_loading hready loading, validatePlan_of_judged (s := acceptedBy 0x0A s) judged]
    rfl
  · rw [exec_planEnd_of_loading hready loading, validatePlan_of_no_room (s := acceptedBy 0x0A s) passed room]
    rfl
  · rw [exec_planEnd_of_loading hready loading, validatePlan_of_job (s := acceptedBy 0x0A s) passed room jobs]
    rfl
  · rw [exec_planEnd_of_loading hready loading, validatePlan_of_passed (s := acceptedBy 0x0A s) passed room jobs,
      acceptPlan_addReservations (congrArg (·.cfg) (evictUntil_settings ..))]
    rfl
  · rw [exec_planEnd_of_ready hready, runPlanEnd_of_valid (s := popInbound s) valid estimate,
      accept_popInbound 0x0A hready.2]
    rfl
  · rw [exec_planEnd_of_ready hready, runPlanEnd_of_rejected (s := popInbound s) rejected,
      accept_popInbound 0x0A hready.2]
  · rw [exec_planEnd_of_ready hready, runPlanEnd_of_stale (s := popInbound s) stale,
      accept_popInbound 0x0A hready.2]
  · exact congrArg (fun l : List Nat => sat32 l.sum) (map_estimateSegment cfg c p (·.time) p.segments)
  · exact congrArg (fun l : List Nat => sat32 l.sum) (map_estimateSegment cfg c p (·.water) p.segments)
  · exact congrArg (fun l : List Nat => sat32 l.sum) (map_estimateSegment cfg c p (·.portion.wear) p.segments)
  · exact congrArg (fun l : List Nat => sat32 l.sum) (map_estimateSegment cfg c p (·.portion.solids) p.segments)
  · refine List.map_congr_left fun l _ => ?_
    simp only [estimateLine, filter_estimateSegment, map_estimateSegment]
    rfl

end Sys2Proof.Proofs

/-! PROOF. CONTINUE (R84, R85). -/

namespace Sys2Proof.Machine

open Sys2Proof Sys2Proof.Safety

/-! ### The pending set -/

/-- R81: a set that still holds an external cause is not empty, whatever else leaves it. -/
theorem Pending.isEmpty_withoutHost_of_external {p : Pending} (external : p.waterShort = true ∨ p.sumpFull = true) :
    p.withoutHost.isEmpty = false := by
  obtain short | full := external
  · simp [isEmpty, withoutHost, short]
  · simp [isEmpty, withoutHost, full]

/-- R81: a set with no external cause is empty once the host causes have left it. -/
theorem Pending.isEmpty_withoutHost {p : Pending} (water : p.waterShort = false) (sump : p.sumpFull = false) :
    p.withoutHost.isEmpty = true := by
  simp [isEmpty, withoutHost, water, sump]

/-- R81: a set that is not empty leaves the plan as it is, and the water share unit is told. -/
theorem setPending_of_not_empty {p : Pending} (h : p.isEmpty = false) (s : State) :
    setPending p s = tellWater { s with active := { s.active with pending := p } } := by
  simp [setPending, h]

/-- R85: a PAUSED plan resumes as its set is left empty. -/
theorem setPending_of_empty {p : Pending} {s : State} (paused : s.active.state = .paused) (h : p.isEmpty = true) :
    setPending p s = resumePlan { s with active := { s.active with pending := p } } := by
  simp [setPending, paused, h]

/-! ### CONTINUE -/

/-- R84, R171: CONTINUE taken from the head of the inbound queue. -/
theorem exec_continuePlan_of_ready {s : State} (h : ready .continuePlan s) :
    exec .continuePlan s = .next (launchWrite (runContinue (popInbound s))) := takeCommand_of_ready h

/-- R84: CONTINUE is refused unless a PAUSED plan has a host cause pending. -/
theorem runContinue_refused {s : State} (room : roomToAnswer s)
    (h : s.active.state ≠ .paused ∨ s.active.pending.hasHost = false) :
    runContinue (popInbound s) = refusedBy 0x0E .state s := by
  have condition : ¬ (s.active.state = .paused ∧ s.active.pending.hasHost = true) := by
    rintro ⟨paused, host⟩
    obtain other | hostless := h
    · exact other paused
    · exact absurd host (by simp [hostless])
  rw [runContinue, popInbound_active, if_neg condition, refuse_popInbound 0x0E .state room]

/-- R84: an accepted CONTINUE removes every host cause together. -/
theorem runContinue_accepted {s : State} (room : roomToAnswer s) (paused : s.active.state = .paused)
    (host : s.active.pending.hasHost = true) :
    runContinue (popInbound s) = setPending s.active.pending.withoutHost (acceptedBy 0x0E s) := by
  rw [runContinue, popInbound_active, if_pos ⟨paused, host⟩, accept_popInbound 0x0E room]

end Sys2Proof.Machine

namespace Sys2Proof.Proofs

open Sys2Proof Sys2Proof.Machine Sys2Proof.Safety

/-- Settles O41: CONTINUE refused, and accepted with an external cause left in the set or none. -/
theorem continueRemovesHostCauses : Obligations.ContinueRemovesHostCauses := by
  intro s hready
  refine ⟨fun unfit => ?_, fun paused host external => ?_, fun paused host water sump => ?_⟩
  · rw [exec_continuePlan_of_ready hready, runContinue_refused hready.2 unfit]
  · rw [exec_continuePlan_of_ready hready, runContinue_accepted hready.2 paused host,
      setPending_of_not_empty (Pending.isEmpty_withoutHost_of_external external)]
    rfl
  · rw [exec_continuePlan_of_ready hready, runContinue_accepted hready.2 paused host,
      setPending_of_empty (s := acceptedBy 0x0E s) paused (Pending.isEmpty_withoutHost water sump)]
    simp only [resumePlan, setActiveState, Pending.withoutHost, water, sump]
    rfl

end Sys2Proof.Proofs

/-! PROOF. CLOSE SLAB (R93, R94). -/

namespace Sys2Proof.Machine

open Sys2Proof Sys2Proof.Safety

/-! ### What a settlement leaves of the active slot -/

/-- R172: reports leave the active slot alone. -/
@[simp] theorem reports_active (rs : List Report) (s : State) : (reports rs s).active = s.active := by
  rw [reports_only_host]

/-- R145: a posting leaves the active slot alone. -/
@[simp] theorem postJob_active (j : Nat) (f : JobRecord → JobRecord) (s : State) : (postJob j f s).active = s.active := by
  rw [postJob_frame]

/-- R144: the postings of a settlement leave the active slot alone. -/
@[simp] theorem postMaterial_active (lines : List ShareLine) (s : State) : (postMaterial lines s).active = s.active := by
  induction lines generalizing s with
  | nil => rfl
  | cons l rest ih => exact (ih _).trans (postJob_active ..)

/-- R141: in-use counts leave the active slot alone. -/
@[simp] theorem releaseJobs_active (js : List Nat) (s : State) : (releaseJobs js s).active = s.active := by
  rw [releaseJobs_only_jobs]

/-- R62: a staged plan that goes STALE leaves the active slot alone. -/
@[simp] theorem stalePlan_active (slab : Nat) (cause : StaleCause) (s : State) :
    (stalePlan slab cause s).active = s.active := by
  unfold stalePlan
  split
  · split <;> simp [releasePlan]
  all_goals rfl

/-- R94: SCRAP leaves the active slot alone. -/
@[simp] theorem scrapSlab_active (slab : Nat) (lines : List ShareLine) (s : State) :
    (scrapSlab slab lines s).active = s.active := by
  simp [scrapSlab]

/-- R94: the slot is cleared by what it was before the settlement, its tag kept. -/
theorem clearSettled_of_active_eq (slab : Nat) {s u : State} (same : u.active = s.active) :
    clearSettled slab u =
      if abortedHere slab s then
        { releaseJobs (distinctJobs s.active.plan.pieces) u with active := { Active.reset with tag := s.active.tag } }
      else u := by
  have here : abortedOn u slab = abortedHere slab s := by rw [abortedOn, abortedHere, same]
  rw [clearSettled, here, emptyActive, releaseJobs_active, same]

/-! ### The reply -/

/-- 12: a share line takes ten bytes. -/
theorem length_shareLines (lines : List ShareLine) : (lines.flatMap ShareLine.bytes).length = 10 * lines.length := by
  induction lines with
  | nil => rfl
  | cons l rest ih =>
    rw [List.flatMap_cons, List.length_append, ih]
    simp [ShareLine.bytes, le16, le32]
    omega

/-- 12: the first frame of a settlement: kind, length, the command, two bytes and ten for each line. -/
theorem Report.size_settlement (command count : Nat) (lines : List ShareLine) :
    (Report.accepted command (.settlement (some count) lines)).size = 5 + 10 * lines.length := by
  simp [Report.size, Report.body, Accepted.bytes, length_shareLines, -List.length_flatMap]
  omega

/-- R171: the first frame of a settlement is admitted as the reply; each later one is judged on its own. -/
theorem reports_settlementFrames {s : State} (room : roomToAnswer s) (lines : List ShareLine) :
    reports (settlementFrames lines) (popInbound s) = reports (settlementFrames lines).tail
      (answered (.accepted 0x12 (.settlement (some lines.length) (lines.take 5))) s) := by
  have size : (Report.accepted 0x12 (.settlement (some lines.length) (lines.take 5))).size ≤ 248 := by
    have few := List.length_take_le 5 lines
    rw [Report.size_settlement]
    omega
  rw [← report_popInbound room size]
  rfl

/-- 12: a settlement of at most five lines is one frame. -/
theorem tail_settlementFrames_of_few {lines : List ShareLine} (few : lines.length ≤ 5) :
    (settlementFrames lines).tail = [] := by
  have noLine (n : Nat) (h : 5 ≤ n) : lines.drop n = [] := List.drop_eq_nil_of_le (few.trans h)
  simp [settlementFrames, noLine]

/-! ### CLOSE SLAB -/

/-- R93: the checks of CLOSE SLAB are its table. -/
theorem closeChecks_eq_closeSlabTable (slab mode job : Nat) (s : State) :
    closeChecks slab mode job s = closeSlabTable slab mode job s := by
  have unknown : ((findSlab s slab).map (·.state)).isNone = ((findSlab s slab).map (·.state) == none) := by
    cases findSlab s slab <;> rfl
  simp only [closeChecks, closeSlabTable, not_isHeld_eq_all, unknown]
  rfl

/-- R171: the checks of CLOSE SLAB do not look at the inbound queue. -/
theorem closeChecks_popInbound (slab mode job : Nat) (s : State) :
    closeChecks slab mode job (popInbound s) = closeSlabTable slab mode job s :=
  closeChecks_eq_closeSlabTable slab mode job (popInbound s)

/-- R93, R171: CLOSE SLAB taken from the head of the inbound queue. -/
theorem exec_closeSlab_of_ready {slab mode job : Nat} {s : State} (h : ready (.closeSlab slab mode job) s) :
    exec (.closeSlab slab mode job) s = .next (launchWrite (runCloseSlab slab mode job (popInbound s))) :=
  takeCommand_of_ready h

/-- R93, R171: CLOSE SLAB refused by the first of its checks that applies. -/
theorem runCloseSlab_refused {slab mode job : Nat} {why : Reason} {s : State} (room : roomToAnswer s)
    (refused : firstRefusal (closeSlabTable slab mode job s) = some why) :
    runCloseSlab slab mode job (popInbound s) = refusedBy 0x12 why s := by
  rw [runCloseSlab, closeChecks_popInbound, checked_refused room refused]

/-- R94: RETURN answers with no line and makes the slab STOCK. -/
theorem runCloseSlab_return {slab job : Nat} {s : State} (room : roomToAnswer s)
    (passed : firstRefusal (closeSlabTable slab 1 job s) = none) :
    runCloseSlab slab 1 job (popInbound s) = clearSettled slab (releaseClaim slab (setSlabState slab .stock
      (answered (.accepted 0x12 (.settlement (some 0) [])) s))) := by
  rw [runCloseSlab, closeChecks_popInbound, checked_run passed]
  simp only [one_ne_zero, if_false, reports_settlementFrames room]
  rfl

/-- R94: SCRAP answers with its lines and scraps the slab. -/
theorem runCloseSlab_scrap {slab job : Nat} {s : State} (room : roomToAnswer s)
    (passed : firstRefusal (closeSlabTable slab 0 job s) = none) :
    let lines := scrapLines slab job s
    runCloseSlab slab 0 job (popInbound s) = clearSettled slab (releaseClaim slab (scrapSlab slab lines
      (reports (settlementFrames lines).tail
        (answered (.accepted 0x12 (.settlement (some lines.length) (lines.take 5))) s)))) := by
  have queueUnread : scrapLines slab job (popInbound s) = scrapLines slab job s := rfl
  rw [runCloseSlab, closeChecks_popInbound, checked_run passed]
  simp only [if_true, queueUnread, reports_settlementFrames room]

end Sys2Proof.Machine

namespace Sys2Proof.Proofs

open Sys2Proof Sys2Proof.Machine Sys2Proof.Safety

/-- Settles O49: CLOSE SLAB refused, RETURN, and SCRAP answered in one frame or in several. -/
theorem closeSlabSettlesTheSlab : Obligations.CloseSlabSettlesTheSlab := by
  intro slab mode job s hready
  refine ⟨fun why refused => ?_, fun passed hmode => ?_, fun passed hmode few => ?_, fun passed hmode _ => ?_⟩
  · rw [exec_closeSlab_of_ready hready, runCloseSlab_refused hready.2 refused]
  · subst hmode
    rw [exec_closeSlab_of_ready hready, runCloseSlab_return hready.2 passed,
      clearSettled_of_active_eq (s := s) slab (by simp [answered])]
  · subst hmode
    have fewLines : (scrapLines slab job s).length ≤ 5 := few
    rw [exec_closeSlab_of_ready hready, runCloseSlab_scrap hready.2 passed,
      clearSettled_of_active_eq (s := s) slab (by simp [answered]), tail_settlementFrames_of_few fewLines,
      List.take_of_length_le fewLines]
    rfl
  · subst hmode
    rw [exec_closeSlab_of_ready hready, runCloseSlab_scrap hready.2 passed,
      clearSettled_of_active_eq (s := s) slab (by simp [answered])]
    rfl

end Sys2Proof.Proofs

/-! PROOF. The base feed (R98) and the wear (R102) of a segment. -/

namespace Sys2Proof.Machine

open Sys2Proof

/-! ### Holding a value within bounds -/

/-- R98: a value below the bounds becomes the lower one. -/
theorem clampTo_of_lt {lo hi v : Nat} (below : v < lo) : clampTo lo hi v = lo :=
  max_eq_left ((min_le_right hi v).trans below.le)

/-- R98: a value above the bounds becomes the upper one. -/
theorem clampTo_of_gt {lo hi v : Nat} (bounds : lo ≤ hi) (above : hi < v) : clampTo lo hi v = hi := by
  rw [clampTo, min_eq_left above.le, max_eq_right bounds]

/-- R98: a value within the bounds stays. -/
theorem clampTo_of_mem {lo hi v : Nat} (lower : lo ≤ v) (upper : v ≤ hi) : clampTo lo hi v = v := by
  rw [clampTo, min_eq_right upper, max_eq_right lower]

/-! ### The divisor and the quotient of the base feed -/

/-- R98: over the depths and the hardnesses there are, the divisor of the base feed runs from 50 to 23,000. -/
theorem baseFeed_divisor_bounds {depth hardness : Nat} (depthMin : 1 ≤ depth) (depthMax : depth ≤ 92)
    (hardMin : 50 ≤ hardness) (hardMax : hardness ≤ 250) :
    50 ≤ depth * hardness ∧ depth * hardness ≤ 23000 :=
  ⟨Nat.mul_le_mul depthMin hardMin, Nat.mul_le_mul depthMax hardMax⟩

/-- R98: over the divisors there are, an F0 of 300 to 6000 gives a quotient of 26 to 240,000. -/
theorem baseFeed_quotient_bounds {f0 divisor : Nat} (divMin : 50 ≤ divisor) (divMax : divisor ≤ 23000)
    (f0Min : 300 ≤ f0) (f0Max : f0 ≤ 6000) :
    26 ≤ f0 * 2000 / divisor ∧ f0 * 2000 / divisor ≤ 240000 := by
  constructor
  · rw [Nat.le_div_iff_mul_le (by omega)]
    omega
  · exact Nat.div_le_of_le_mul (by omega)

/-! ### Wear -/

/-- R102: the wear is the least number of units that covers the product. -/
theorem wearUnits_isLeast (cfg : ConfigFields) (cls inStone depth : Nat) :
    IsLeast { u : Nat | inStone * depth * hardnessOf cfg cls ≤ u * 100000 } (wearUnits cfg cls inStone depth) :=
  ceilDiv_isLeast (inStone * depth * hardnessOf cfg cls) 100000 (by omega)

end Sys2Proof.Machine

namespace Sys2Proof.Proofs

open Sys2Proof Sys2Proof.Machine

/-- Settles O16: the quotient is the witness, and the clamp is split by where it lies. -/
theorem baseFeedIsClampedQuotient : Obligations.BaseFeedIsClampedQuotient := by
  intro cfg depth cls feeds depthMin depthMax hardMin hardMax
  obtain ⟨divMin, divMax⟩ := baseFeed_divisor_bounds depthMin depthMax hardMin hardMax
  have divPos : 0 < depth * hardnessOf cfg cls := by omega
  refine ⟨divMin, cfg.f0 * 2000 / (depth * hardnessOf cfg cls), Nat.div_mul_le_self .., ?_, clampTo_of_lt,
    clampTo_of_gt feeds, clampTo_of_mem, fun twenty hundred => ?_, baseFeed_quotient_bounds divMin divMax⟩
  · exact (Nat.div_lt_iff_lt_mul divPos).mp (Nat.lt_succ_self _)
  · rw [twenty, hundred]
    exact Nat.mul_div_cancel cfg.f0 (by omega)

/-- Settles O18: rounding up covers the product, and the two figures are evaluated. -/
theorem wearRoundsUpTheCut : Obligations.WearRoundsUpTheCut := by
  refine ⟨wearUnits_isLeast, fun cfg cls depth => ?_, fun cfg cls hundred => ?_⟩
  · simp [wearUnits, ceilDiv]
  · rw [wearUnits, hundred]
    rfl

end Sys2Proof.Proofs

/-! PROOF. The apportionment of a slab among the jobs of a plan (R107 to R109). -/

namespace Sys2Proof.Machine

open Sys2Proof

/-! ### The distinct jobs of a piece list -/

/-- R42: the last piece adds its job at the end unless the list holds it. -/
theorem distinctJobs_concat (pieces : List PieceEntry) (p : PieceEntry) :
    distinctJobs (pieces ++ [p]) =
      if p.job ∈ distinctJobs pieces then distinctJobs pieces else distinctJobs pieces ++ [p.job] := by
  rw [distinctJobs, List.foldl_append]
  rfl

/-- R42: the distinct jobs are those of the pieces. -/
theorem mem_distinctJobs_iff (pieces : List PieceEntry) (job : Nat) :
    job ∈ distinctJobs pieces ↔ job ∈ pieces.map (·.job) := by
  induction pieces using List.reverseRecOn with
  | nil => simp [distinctJobs]
  | append_singleton pieces p ih =>
    rw [distinctJobs_concat, List.map_append, List.mem_append, ← ih, List.map_singleton, List.mem_singleton]
    split
    · next held => exact ⟨.inl, fun h => h.elim id fun same => same ▸ held⟩
    · rw [List.mem_append, List.mem_singleton]

/-- R42: no job stands twice among the distinct jobs. -/
theorem distinctJobs_nodup (pieces : List PieceEntry) : (distinctJobs pieces).Nodup := by
  induction pieces using List.reverseRecOn with
  | nil => exact List.nodup_nil
  | append_singleton pieces p ih =>
    rw [distinctJobs_concat]
    split
    · exact ih
    · next fresh => exact List.concat_eq_append ▸ ih.concat fresh

/-- R42: pieces there are give jobs there are. -/
theorem distinctJobs_ne_nil {pieces : List PieceEntry} (hasPiece : pieces ≠ []) : distinctJobs pieces ≠ [] := by
  obtain ⟨p, hp⟩ := List.exists_mem_of_ne_nil pieces hasPiece
  exact List.ne_nil_of_mem ((mem_distinctJobs_iff pieces p.job).mpr (List.mem_map_of_mem hp))

/-! ### The first job of the largest piece area -/

/-- R108: the job the residue goes to is the library's first maximum of the piece areas. -/
theorem largestJob_mem_argmax (pieces : List PieceEntry) {jobs : List Nat} (hasJob : jobs ≠ []) :
    largestJob pieces jobs ∈ jobs.argmax (jobArea pieces) := by
  obtain ⟨j, rest, rfl⟩ := List.exists_cons_of_ne_nil hasJob
  exact (List.foldl_hom (l := rest) some fun best k => by
    simp only [List.argAux]
    split <;> rfl)

/-! ### The waste shares and the residue -/

/-- The rounded-down parts of a sum come to at most the sum. -/
theorem sum_map_div_mul_le (f : Nat → Nat) (d : Nat) (l : List Nat) :
    (l.map fun j => f j / d).sum * d ≤ (l.map f).sum := by
  induction l with
  | nil => simp
  | cons j l ih =>
    simp only [List.map_cons, List.sum_cons, Nat.add_mul]
    exact Nat.add_le_add (Nat.div_mul_le_self (f j) d) ih

/-- Rounding each part of a sum down loses less than one divisor a part. -/
theorem sum_map_add_length_le (f : Nat → Nat) {d : Nat} (pos : 0 < d) (l : List Nat) :
    (l.map f).sum + l.length ≤ ((l.map fun j => f j / d).sum + l.length) * d := by
  induction l with
  | nil => simp
  | cons j l ih =>
    have head : f j + 1 ≤ (f j / d + 1) * d := (Nat.div_lt_iff_lt_mul pos).mp (Nat.lt_succ_self _)
    simp only [List.map_cons, List.sum_cons, List.length_cons]
    calc f j + (l.map f).sum + (l.length + 1)
        = (f j + 1) + ((l.map f).sum + l.length) := by omega
      _ ≤ (f j / d + 1) * d + ((l.map fun j => f j / d).sum + l.length) * d := Nat.add_le_add head ih
      _ = (f j / d + (l.map fun j => f j / d).sum + (l.length + 1)) * d := by ring

section Waste

variable (pieces : List PieceEntry) (waste : Nat) (jobs : List Nat)

/-- R108: the waste shares of jobs with no piece area are nothing. -/
theorem sum_wasteShare_of_no_area : (jobs.map (wasteShare pieces waste 0)).sum = 0 :=
  List.sum_eq_zero (by simp [wasteShare])

/-- R108: the waste shares come to at most the waste. -/
theorem sum_wasteShare_le :
    (jobs.map (wasteShare pieces waste (jobs.map (jobArea pieces)).sum)).sum ≤ waste := by
  obtain noArea | pos := Nat.eq_zero_or_pos (jobs.map (jobArea pieces)).sum
  · rw [noArea, sum_wasteShare_of_no_area]
    exact Nat.zero_le waste
  · have parts := sum_map_div_mul_le (fun j => waste * jobArea pieces j) (jobs.map (jobArea pieces)).sum jobs
    rw [List.sum_map_mul_left] at parts
    exact Nat.le_of_mul_le_mul_right parts pos

/-- R108: where some piece has area, rounding the waste shares down leaves less than one unit a job. -/
theorem lt_sum_wasteShare_add_length (pos : 0 < (jobs.map (jobArea pieces)).sum) :
    waste < (jobs.map (wasteShare pieces waste (jobs.map (jobArea pieces)).sum)).sum + jobs.length := by
  have parts := sum_map_add_length_le (fun j => waste * jobArea pieces j) pos jobs
  rw [List.sum_map_mul_left] at parts
  have hasJob : 0 < jobs.length := List.length_pos_iff.mpr (by rintro rfl; simp at pos)
  exact Nat.lt_of_mul_lt_mul_right (a := (jobs.map (jobArea pieces)).sum)
    (lt_of_lt_of_le (Nat.lt_add_of_pos_right hasJob) parts)

end Waste

/-- Of distinct jobs, one that stands in the list is given an amount once. -/
theorem sum_map_ite_eq_of_nodup {jobs : List Nat} {big : Nat} (distinct : jobs.Nodup) (mem : big ∈ jobs)
    (amount : Nat) : (jobs.map fun j => if j = big then amount else 0).sum = amount := by
  rw [List.sum_map_eq_nsmul_single big _ fun j other _ => if_neg other,
    List.count_eq_one_of_mem distinct mem, one_nsmul, if_pos rfl]

/-! ### The shares of an apportionment -/

/-- R107: P, the piece area of all of a plan's jobs. -/
def pieceTotal (pieces : List PieceEntry) : Nat := ((distinctJobs pieces).map (jobArea pieces)).sum

/-- R108: what pieces and remnants leave of the outline. -/
def wasteArea (c : SlabContents) (pieces : List PieceEntry) (remnant : Nat) : Nat :=
  areaOf c.width c.height - pieceTotal pieces - remnant

/-- R108: what the waste shares leave of the waste. -/
def residueArea (c : SlabContents) (pieces : List PieceEntry) (remnant : Nat) : Nat :=
  wasteArea c pieces remnant -
    ((distinctJobs pieces).map (wasteShare pieces (wasteArea c pieces remnant) (pieceTotal pieces))).sum

/-- R108: a job's area share. -/
def areaShare (c : SlabContents) (pieces : List PieceEntry) (remnant job : Nat) : Nat :=
  jobArea pieces job + wasteShare pieces (wasteArea c pieces remnant) (pieceTotal pieces) job +
    if job = largestJob pieces (distinctJobs pieces) then residueArea c pieces remnant else 0

section Apportion

variable (c : SlabContents) (pieces : List PieceEntry) (remnant : Nat)

/-- R107 to R109: one line a distinct job, with its share and the cents of it. -/
theorem apportion_eq_map : apportion c pieces remnant = (distinctJobs pieces).map fun j =>
    ⟨j, areaShare c pieces remnant j, materialCents c.price (areaShare c pieces remnant j)⟩ := rfl

/-- R108: the lines stand in the order of the distinct jobs. -/
theorem map_job_apportion : (apportion c pieces remnant).map (·.job) = distinctJobs pieces := by
  rw [apportion_eq_map, List.map_map]
  exact List.map_id' _

/-- R108: the lines' areas are the jobs' shares. -/
theorem map_area_apportion :
    (apportion c pieces remnant).map (·.area) = (distinctJobs pieces).map (areaShare c pieces remnant) := by
  rw [apportion_eq_map, List.map_map]
  rfl

/-- R109: material cents are the least number that covers the share times the price. -/
theorem materialCents_isLeast (price share : Nat) :
    IsLeast { n : Nat | share * price ≤ n * 10000 } (materialCents price share) :=
  ceilDiv_isLeast (share * price) 10000 (by omega)

/-- R108: the shares come to the pieces and the waste together. -/
theorem sum_areaShare (hasPiece : pieces ≠ []) :
    ((distinctJobs pieces).map (areaShare c pieces remnant)).sum = pieceTotal pieces + wasteArea c pieces remnant := by
  have big := List.argmax_mem (largestJob_mem_argmax pieces (distinctJobs_ne_nil hasPiece))
  have shares : ((distinctJobs pieces).map
      (wasteShare pieces (wasteArea c pieces remnant) (pieceTotal pieces))).sum ≤ wasteArea c pieces remnant :=
    sum_wasteShare_le pieces (wasteArea c pieces remnant) (distinctJobs pieces)
  unfold areaShare
  rw [List.sum_map_add, List.sum_map_add, sum_map_ite_eq_of_nodup (distinctJobs_nodup pieces) big,
    ← pieceTotal, residueArea, Nat.add_assoc, Nat.add_sub_of_le shares]

/-- R108: where some piece has area, the residue is less than one unit a job. -/
theorem residueArea_lt_length (pos : 0 < pieceTotal pieces) :
    residueArea c pieces remnant < (distinctJobs pieces).length :=
  Nat.sub_lt_left_of_lt_add
    (sum_wasteShare_le pieces (wasteArea c pieces remnant) (distinctJobs pieces))
    (lt_sum_wasteShare_add_length pieces (wasteArea c pieces remnant) (distinctJobs pieces) pos)

/-- R108: where no piece has area, the residue is all of the waste. -/
theorem residueArea_of_no_area (noArea : pieceTotal pieces = 0) :
    residueArea c pieces remnant = wasteArea c pieces remnant := by
  rw [residueArea, noArea, sum_wasteShare_of_no_area, Nat.sub_zero]

end Apportion

end Sys2Proof.Machine

namespace Sys2Proof.Proofs

open Sys2Proof Sys2Proof.Machine

/-- Settles O21: the residue makes the rounded-down shares up to the outline, and goes to the first largest job. -/
theorem areaSharesAddUpToTheSlab : Obligations.AreaSharesAddUpToTheSlab := by
  intro c pieces remnant hasPiece fits
  have largest := largestJob_mem_argmax pieces (distinctJobs_ne_nil hasPiece)
  refine ⟨map_job_apportion c pieces remnant, ?_, ?_, largestJob pieces (distinctJobs pieces),
    residueArea c pieces remnant, List.argmax_mem largest, fun j hj => ⟨List.le_of_mem_argmax hj largest,
      fun same => List.index_of_argmax largest hj same.ge⟩,
    residueArea_lt_length c pieces remnant, residueArea_of_no_area c pieces remnant, ?_⟩
  · have room : pieceTotal pieces + remnant ≤ areaOf c.width c.height := fits
    rw [map_area_apportion, sum_areaShare c pieces remnant hasPiece, wasteArea]
    omega
  · rw [apportion_eq_map, List.forall_mem_map]
    exact fun j _ => materialCents_isLeast c.price (areaShare c pieces remnant j)
  · rw [apportion_eq_map, List.forall_mem_map]
    exact fun j _ => rfl

end Sys2Proof.Proofs

/-! PROOF. The water share unit's figures: Σ and the allotment (R115), and the fresh draw (R116). -/

namespace Sys2Proof.Machine

open Sys2Proof

/-! ### The allotment -/

/-- R115: a station that asks for nothing is allotted nothing. -/
theorem allotmentOf_zero (sigma supply : Nat) : allotmentOf 0 sigma supply = 0 := if_pos rfl

/-- R115: where the demands fit the supply, the allotment is the own demand. -/
theorem allotmentOf_of_fits {sigma supply : Nat} (own : Nat) (fits : sigma ≤ supply) :
    allotmentOf own sigma supply = own := by
  obtain rfl | asks := Nat.eq_zero_or_pos own
  · exact allotmentOf_zero sigma supply
  · rw [allotmentOf, if_neg asks.ne', if_pos fits]

/-- R115: where the demands exceed the supply, the allotment is the own part of it, also of an own demand of 0. -/
theorem allotmentOf_of_exceeds {sigma supply : Nat} (own : Nat) (exceeds : supply < sigma) :
    allotmentOf own sigma supply = own * supply / sigma := by
  obtain rfl | asks := Nat.eq_zero_or_pos own
  · rw [allotmentOf_zero, Nat.zero_mul, Nat.zero_div]
  · rw [allotmentOf, if_neg asks.ne', if_neg exceeds.not_ge]

theorem allotmentOf_le_own (own sigma supply : Nat) : allotmentOf own sigma supply ≤ own := by
  obtain fits | exceeds := le_or_gt sigma supply
  · exact (allotmentOf_of_fits own fits).le
  · rw [allotmentOf_of_exceeds own exceeds]
    exact Nat.div_le_of_le_mul (Nat.mul_comm sigma own ▸ Nat.mul_le_mul_left own exceeds.le)

theorem allotmentOf_le_supply {own sigma : Nat} (supply : Nat) (part : own ≤ sigma) :
    allotmentOf own sigma supply ≤ supply := by
  obtain fits | exceeds := le_or_gt sigma supply
  · exact (allotmentOf_of_fits own fits).trans_le (part.trans fits)
  · rw [allotmentOf_of_exceeds own exceeds]
    exact Nat.div_le_of_le_mul (Nat.mul_le_mul_right supply part)

/-- R115: stations that see the same demands and use the same S are together allotted at most S. -/
theorem sum_allotmentOf_le (demands : List Nat) (supply : Nat) :
    (demands.map fun d => allotmentOf d demands.sum supply).sum ≤ supply := by
  obtain fits | exceeds := le_or_gt demands.sum supply
  · simpa only [allotmentOf_of_fits _ fits, List.map_id'] using fits
  · have parts := sum_map_div_mul_le (· * supply) demands.sum demands
    rw [List.sum_map_mul_right, List.map_id', Nat.mul_comm demands.sum] at parts
    simpa only [allotmentOf_of_exceeds _ exceeds] using
      Nat.le_of_mul_le_mul_right parts (Nat.zero_lt_of_lt exceeds)

/-! ### The sum of demands -/

/-- R114, R115: the demand counted for station `k`: nothing for this station's own number. -/
def demandAt (s : State) (k : Nat) : Nat :=
  if s.station.number = some k then 0 else countedDemand (peerOf s k)

theorem demandAt_eq_ite (s : State) (k : Nat) : demandAt s k =
    if s.station.number = some k ∨ (peerOf s k).presence = .absent then 0 else (peerOf s k).demand := by
  rw [demandAt, countedDemand, ite_or]

theorem demandAt_own {s : State} {k : Nat} (own : s.station.number = some k) : demandAt s k = 0 := if_pos own

/-- R115: the peers' demands are those counted for the stations of the table. -/
theorem peerDemands_eq_sum_demandAt (s : State) :
    peerDemands s = ((List.range s.peers.length).map (demandAt s)).sum := by
  refine congrArg List.sum (List.ext_getElem (by simp) fun k inMapIdx _ => ?_)
  have inTable : k < s.peers.length := by simpa using inMapIdx
  simp [demandAt, peerOf, inTable]

/-- A bound of the demands in the table bounds what is counted for any station. -/
theorem demandAt_le {s : State} {most : Nat} (bounded : ∀ p ∈ s.peers, p.demand ≤ most) (k : Nat) :
    demandAt s k ≤ most := by
  have atMost : (peerOf s k).demand ≤ most := by
    obtain inTable | outside := Nat.lt_or_ge k s.peers.length
    · rw [peerOf, List.getD_eq_getElem _ _ inTable]
      exact bounded _ (List.getElem_mem inTable)
    · rw [peerOf, List.getD_eq_default _ _ outside]
      exact Nat.zero_le most
  rw [demandAt_eq_ite]
  split
  · exact Nat.zero_le most
  · exact atMost

/-- R115: a station with a place in the table counts the demands of the others alone. -/
theorem peerDemands_le {s : State} {k most : Nat} (own : s.station.number = some k) (inTable : k < s.peers.length)
    (bounded : ∀ p ∈ s.peers, p.demand ≤ most) : peerDemands s ≤ (s.peers.length - 1) * most := by
  have mem : k ∈ List.range s.peers.length := List.mem_range.mpr inTable
  have others : (((List.range s.peers.length).erase k).map (demandAt s)).sum ≤ (s.peers.length - 1) * most := by
    simpa [List.length_erase_of_mem mem] using List.sum_le_card_nsmul
      (((List.range s.peers.length).erase k).map (demandAt s)) most (by simp [demandAt_le bounded])
  rw [peerDemands_eq_sum_demandAt, ← List.sum_map_erase (demandAt s) mem, demandAt_own own, Nat.zero_add]
  exact others

/-! ### The fresh draw -/

/-- R116: with makeup disabled, no fresh water is drawn. -/
theorem freshDraw_of_disabled {cfg : ConfigFields} (own a : Nat) (disabled : cfg.makeup = 0) :
    freshDraw cfg own a = 0 := if_pos disabled

/-- R116: with makeup enabled, the fresh draw is the lower of the shortfall and the fresh limit. -/
theorem freshDraw_of_enabled {cfg : ConfigFields} (own a : Nat) (enabled : cfg.makeup ≠ 0) :
    freshDraw cfg own a = min (own - a) cfg.freshLimit := if_neg enabled

theorem freshDraw_le_min (cfg : ConfigFields) (own a : Nat) :
    freshDraw cfg own a ≤ min (own - a) cfg.freshLimit := by
  obtain disabled | enabled := Decidable.em (cfg.makeup = 0)
  · exact (freshDraw_of_disabled own a disabled).trans_le (Nat.zero_le _)
  · exact (freshDraw_of_enabled own a enabled).le

/-! ### A recompute -/

/-- R118: judging the dwell sets its timer alone. -/
theorem judgeDwell_water (s : State) : ∃ dwell, (judgeDwell s).water = { s.water with dwell := dwell } := ⟨_, rfl⟩

/-- R114, R117: whatever the plan slots are told, a recompute leaves the new figures, and at most a judged dwell. -/
theorem recomputeWater_water (s : State) :
    ∃ dwell, (recomputeWater s).water = { waterFigures s with dwell := dwell } := by
  unfold recomputeWater
  simp only
  split <;> split
  · simpa only [planOnWater_water] using judgeDwell_water (planOnWater { s with water := waterFigures s })
  · exact judgeDwell_water { s with water := waterFigures s }
  · exact ⟨_, planOnWater_water { s with water := waterFigures s }⟩
  · exact ⟨_, rfl⟩

theorem recomputeWater_allotment (s : State) :
    (recomputeWater s).water.allotment = (waterFigures s).allotment := by
  obtain ⟨dwell, water⟩ := recomputeWater_water s
  rw [water]

theorem recomputeWater_fresh (s : State) : (recomputeWater s).water.fresh = (waterFigures s).fresh := by
  obtain ⟨dwell, water⟩ := recomputeWater_water s
  rw [water]

end Sys2Proof.Machine

namespace Sys2Proof.Proofs

open Sys2Proof Sys2Proof.Machine

/-- Settles O19: Σ is the sum over the table without the own place, and the allotment is split by whether Σ fits S. -/
theorem allotmentSharesTheSupply : Obligations.AllotmentSharesTheSupply := by
  refine ⟨fun s table ownMax peerMax ⟨k, inTable, own⟩ => ⟨?_, ?_, rfl, recomputeWater_allotment s⟩,
    fun own sigma supply part => ⟨?_, allotmentOf_of_fits own, fun _ exceeds => ?_,
      allotmentOf_le_own own sigma supply, allotmentOf_le_supply supply part⟩, sum_allotmentOf_le⟩
  · simp only [← demandAt_eq_ite]
    rw [← table, ← peerDemands_eq_sum_demandAt]
    rfl
  · have peers := peerDemands_le own (table ▸ inTable) peerMax
    rw [table] at peers
    calc (waterFigures s).sigma
        = s.water.own + peerDemands s := rfl
      _ ≤ 120 + (31 - 1) * 255 := Nat.add_le_add ownMax peers
  · rintro rfl
    exact allotmentOf_zero sigma supply
  · exact ⟨own * supply / sigma, allotmentOf_of_exceeds own exceeds, Nat.div_mul_le_self ..,
      (Nat.div_lt_iff_lt_mul (Nat.zero_lt_of_lt exceeds)).mp (Nat.lt_succ_self _)⟩

/-- Settles O20: both bounds come from the lower of the two figures, and an own demand or a limit of 0 makes it 0. -/
theorem freshDrawMakesUpTheShortfall : Obligations.FreshDrawMakesUpTheShortfall := by
  refine ⟨fun cfg own a => ?_, fun s => ?_⟩
  · obtain ⟨short, limit⟩ := le_min_iff.mp (freshDraw_le_min cfg own a)
    refine ⟨freshDraw_of_enabled own a, freshDraw_of_disabled own a, limit, short, ?_, fun noLimit => ?_⟩
    · rintro rfl
      exact Nat.le_zero.mp (short.trans_eq (Nat.zero_sub a))
    · exact Nat.le_zero.mp (noLimit ▸ limit)
  · rw [recomputeWater_fresh, recomputeWater_allotment]
    rfl

end Sys2Proof.Proofs

/-! PROOF. The commands on the cost table: OPEN JOB, CLOSE JOB and FREE JOB (R138, R140). -/

namespace Sys2Proof.Machine

open Sys2Proof Sys2Proof.Safety

/-! ### A command that checks, accepts and acts -/

/-- R171: what the host sees of a command that runs a table of checks on a part of the state other than the host link,
accepts and then acts: the first refusal and nothing else, or the acceptance and the effect. -/
theorem exec_checked_of_ready {c : Instr} {command : Nat} {table : State → List (Bool × Reason)}
    {run effect : State → State} {s : State} (takes : exec c s = takeCommand 0 c run s)
    (checks : ∀ t, run t = checked command (table t) (fun t => effect (accept command t)) t)
    (unread : table (popInbound s) = table s) (h : ready c s) :
    (∀ why, firstRefusal (table s) = some why → exec c s = .next (launchWrite (refusedBy command why s))) ∧
      (firstRefusal (table s) = none → exec c s = .next (launchWrite (effect (acceptedBy command s)))) := by
  rw [takes, takeCommand_of_ready h, checks, unread]
  refine ⟨fun why refused => ?_, fun passed => ?_⟩
  · rw [checked_refused h.2 refused]
  · rw [checked_run passed, accept_popInbound command h.2]

/-- R171: a check that applies refuses, and one that does not leaves it to the rest. -/
theorem checked_cons (command : Nat) (applies : Bool) (why : Reason) (rest : List (Bool × Reason))
    (run : State → State) (s : State) : checked command ((applies, why) :: rest) run s =
      if applies then refuse command why s else checked command rest run s := by
  cases applies <;> rfl

theorem checked_nil (command : Nat) (run : State → State) (s : State) : checked command [] run s = run s := rfl

/-! ### The table's places -/

/-- R137: a job number is 1..65,535, so the range row of a table applies to every other number. -/
theorem isJobNumber_eq_not (n : Nat) : isJobNumber n = !(n == 0 || decide (65535 < n)) := by
  rw [Bool.eq_iff_iff]
  simp only [isJobNumber, Bool.and_eq_true, decide_eq_true_eq, Bool.not_eq_true', Bool.or_eq_false_iff,
    beq_eq_false_iff_ne, decide_eq_false_iff_not]
  omega

/-- R137: the range row of a table does not apply to a job number. -/
theorem jobRange_eq_false {n : Nat} (low : 1 ≤ n) (high : n ≤ 65535) : (n == 0 || decide (65535 < n)) = false := by
  rw [← Bool.not_eq_true', ← isJobNumber_eq_not]
  simp [isJobNumber, low, high]

/-- R138: the lowest free place is the one that is empty with no empty place before it. -/
theorem findIdx?_isNone_eq_some {jobs : List (Option JobRecord)} {i : Nat} (free : jobs[i]? = some none)
    (lowest : ∀ k < i, jobs[k]? ≠ some none) : jobs.findIdx? (·.isNone) = some i := by
  obtain ⟨inTable, empty⟩ := List.getElem?_eq_some_iff.mp free
  refine List.findIdx?_eq_some_iff_getElem.mpr ⟨inTable, by simp [empty], fun k before taken => ?_⟩
  exact lowest k before (List.getElem?_eq_some_iff.mpr ⟨before.trans inTable, Option.isNone_iff_eq_none.mp taken⟩)

/-- R138: the table is full exactly when no place of it is free. -/
theorem findIdx?_isNone_eq_none_iff (jobs : List (Option JobRecord)) :
    jobs.findIdx? (·.isNone) = none ↔ jobs.all (·.isSome) = true := by
  simp [List.findIdx?_eq_none_iff, Option.isSome_iff_ne_none]

/-- R149: the write queued for a record is that of its place. -/
theorem storeJob_of_place {number i : Nat} {s : State} (place : jobPlace s number = some i) :
    storeJob number s = queueWrite (.job i) s := by
  rw [storeJob, place, Option.elim_some]

/-- R137: a change to a record that keeps its number leaves every record in its place. -/
theorem jobPlace_mapJob {f : JobRecord → JobRecord} (keeps : ∀ j, (f j).number = j.number) (changed number : Nat)
    (s : State) : jobPlace (mapJob changed f s) number = jobPlace s number := by
  have sameNumber (j : JobRecord) : (if j.number = changed then f j else j).number = j.number := by
    split
    · exact keeps j
    · rfl
  simp only [jobPlace, mapJob, List.findIdx?_map, Function.comp_def, Option.any_map, sameNumber]

/-- R183: queueing a write looks at the store alone, so it may come before or after a change to the table. -/
theorem queueWrite_with_jobs (p : StorePlace) (s : State) (jobs : List (Option JobRecord)) :
    { queueWrite p s with jobs := jobs } = queueWrite p { s with jobs := jobs } := by
  by_cases pending : p ∈ s.store.queue
  · simp only [queueWrite, if_pos pending]
  · simp only [queueWrite, if_neg pending]

/-! ### OPEN JOB -/

/-- R138: the new record put in the lowest free place, where there is one. -/
def openJobInLowest (job : Nat) (estimate : Option Nat) (s : State) : State :=
  (s.jobs.findIdx? (·.isNone)).elim s fun i => openJobAt i job estimate s

theorem openJobInLowest_of_free {job i : Nat} {estimate : Option Nat} {s : State} (free : s.jobs[i]? = some none)
    (lowest : ∀ k < i, s.jobs[k]? ≠ some none) : openJobInLowest job estimate s = openJobAt i job estimate s := by
  rw [openJobInLowest, findIdx?_isNone_eq_some free lowest, Option.elim_some]

/-- R138: OPEN JOB runs the checks of its table, and then takes the lowest free place. -/
theorem runOpenJob_eq_checked (job : Nat) (estimate : Option Nat) (s : State) :
    runOpenJob job estimate s =
      checked 0x13 (openJobTable job s) (fun t => openJobInLowest job estimate (accept 0x13 t)) s := by
  have atLowest : openJobInLowest job estimate (accept 0x13 s) = (s.jobs.findIdx? (·.isNone)).elim (accept 0x13 s)
      fun i => openJobAt i job estimate (accept 0x13 s) := by
    simp [openJobInLowest, accept, acceptWith]
  simp only [runOpenJob, openJobTable, checked_cons, checked_nil, isJobNumber_eq_not, Bool.not_eq_false', atLowest]
  cases place : s.jobs.findIdx? (·.isNone) with
  | none => rw [(findIdx?_isNone_eq_none_iff s.jobs).mp place, if_pos rfl]
  | some i =>
    have room : ¬ s.jobs.all (·.isSome) = true := by
      rw [← findIdx?_isNone_eq_none_iff, place]
      exact Option.some_ne_none i
    rw [if_neg room, Option.elim_some]

/-- R138: no check of OPEN JOB applies to a job number of no record while a place is free. -/
theorem openJobTable_passed {job i : Nat} {s : State} (low : 1 ≤ job) (high : job ≤ 65535)
    (unknown : findJob s job = none) (free : s.jobs[i]? = some none) : firstRefusal (openJobTable job s) = none := by
  have room : s.jobs.all (·.isSome) = false :=
    List.all_eq_false.mpr ⟨none, List.mem_of_getElem? free, by simp⟩
  rw [firstRefusal_eq_none_iff]
  simp [openJobTable, jobRange_eq_false low high, unknown, room]

/-! ### CLOSE JOB -/

/-- R140: the record of a job closed, its write queued. -/
def closeJobRecord (job : Nat) (s : State) : State := storeJob job (mapJob job (fun j => { j with closed := true }) s)

theorem closeJobRecord_of_place {job i : Nat} {s : State} (place : jobPlace s job = some i) :
    closeJobRecord job s = queueWrite (.job i) (mapJob job (fun j => { j with closed := true }) s) :=
  storeJob_of_place ((jobPlace_mapJob (f := fun j => { j with closed := true }) (fun _ => rfl) job job s).trans place)

/-- R140: CLOSE JOB runs the checks of its table, and then closes the record. -/
theorem runCloseJob_eq_checked (job : Nat) (s : State) :
    runCloseJob job s = checked 0x14 (closeJobTable job s) (fun t => closeJobRecord job (accept 0x14 t)) s := by
  simp only [runCloseJob, closeJobTable, checked_cons, checked_nil, isJobNumber_eq_not, Bool.not_eq_false']
  cases findJob s job with
  | none => rfl
  | some j => simp only [Option.all_some, Option.any_some, decide_eq_true_eq, closeJobRecord]

/-- R140: no check of CLOSE JOB applies to an OPEN record of no use. -/
theorem closeJobTable_passed {job : Nat} {j : JobRecord} {s : State} (low : 1 ≤ job) (high : job ≤ 65535)
    (found : findJob s job = some j) (opened : j.closed = false) (unused : j.inUse = 0) :
    firstRefusal (closeJobTable job s) = none := by
  rw [firstRefusal_eq_none_iff]
  simp [closeJobTable, jobRange_eq_false low high, found, opened, unused]

/-! ### FREE JOB -/

theorem removeJob_of_place {job i : Nat} {s : State} (place : jobPlace s job = some i) :
    removeJob job s = queueWrite (.job i) { s with jobs := s.jobs.map fun o => o.filter (·.number != job) } := by
  rw [← queueWrite_with_jobs]
  simp only [removeJob, storeJob_of_place place, queueWrite_jobs]

/-- R140: FREE JOB runs the checks of its table, and then removes the record. -/
theorem runFreeJob_eq_checked (job : Nat) (s : State) :
    runFreeJob job s = checked 0x15 (freeJobTable job s) (fun t => removeJob job (accept 0x15 t)) s := by
  simp only [runFreeJob, freeJobTable, checked_cons, checked_nil, beq_iff_eq]
  cases findJob s job with
  | none => rfl
  | some j => cases closed : j.closed <;> simp [closed]

/-- R140: no check of FREE JOB applies to a CLOSED record. -/
theorem freeJobTable_passed {job : Nat} {j : JobRecord} {s : State} (nonzero : job ≠ 0)
    (found : findJob s job = some j) (closed : j.closed = true) : firstRefusal (freeJobTable job s) = none := by
  rw [firstRefusal_eq_none_iff]
  simp [freeJobTable, nonzero, found, closed]

end Sys2Proof.Machine

namespace Sys2Proof.Proofs

open Sys2Proof Sys2Proof.Machine Sys2Proof.Safety

/-- Settles O50: each command by its checks, and by the place its record takes or has. -/
theorem jobCommandsOpenCloseAndFree : Obligations.JobCommandsOpenCloseAndFree := by
  refine ⟨fun job estimate s hready => ?_, fun job s hready => ?_, fun job s hready => ?_⟩
  · obtain ⟨refused, accepted⟩ := exec_checked_of_ready (table := openJobTable job) rfl
      (runOpenJob_eq_checked job estimate) rfl hready
    refine ⟨refused, fun i low high unknown free lowest => ?_⟩
    rw [accepted (openJobTable_passed low high unknown free),
      openJobInLowest_of_free (s := acceptedBy 0x13 s) free lowest]
    rfl
  · obtain ⟨refused, accepted⟩ := exec_checked_of_ready (table := closeJobTable job) rfl
      (runCloseJob_eq_checked job) rfl hready
    refine ⟨refused, fun j i low high found opened unused place => ?_⟩
    rw [accepted (closeJobTable_passed low high found opened unused),
      closeJobRecord_of_place (s := acceptedBy 0x14 s) place]
    rfl
  · obtain ⟨refused, accepted⟩ := exec_checked_of_ready (table := freeJobTable job) rfl
      (runFreeJob_eq_checked job) rfl hready
    refine ⟨refused, fun j i nonzero found closed place => ?_⟩
    rw [accepted (freeJobTable_passed nonzero found closed), removeJob_of_place (s := acceptedBy 0x15 s) place]
    rfl

end Sys2Proof.Proofs

/-! PROOF. What the operations below a command can do: one relation whose steps are the changes the shared operations
make, each with what its callers have tested, and one lemma per operation that it makes such changes alone. The
invariants of every step are proved over these changes. -/

namespace Sys2Proof.Machine

open Sys2Proof Sys2Proof.Safety

/-! ### The changes -/

/-- What a run of operations may touch: `slot`, whether the active slot and its order frames may change; `line`, whether the
transmit queue and the claim table may; `kept`, the slab, if there is one, whose record stays CUTTING and whose claim stays
HELD. -/
structure Scope where
  slot : Prop
  line : Prop
  kept : Option Nat

/-- A run that may touch everything. -/
def Scope.all : Scope := ⟨True, True, none⟩

/-- A slab or press that a run may let go of: not the slab kept, as long as that is CUTTING. -/
def letsGo (k : Scope) (s : State) (id : Nat) : Prop :=
  k.kept = some id → isSlabId id = true → ∀ r, findSlab s id = some r → r.state ≠ .cutting

/-- R137, R141, R146: job numbers are distinct; a record in use is OPEN, its counts are within 32 bits and its total is the
sum of its components. -/
def jobTableSound (jobs : List (Option JobRecord)) : Prop :=
  ((jobs.filterMap fun o => o).map (·.number)).Nodup ∧
  ∀ j, some j ∈ jobs → (0 < j.inUse → j.closed = false) ∧ (∀ n ∈ j.counts, n ≤ max32) ∧ totalHolds j

/-- One change that an operation below a command makes. -/
inductive Move (k : Scope) : State → State → Prop
  | report {r : Report} (s : State) : r.isOrder = false → Move k s (report r s)
  | orderFrame (r : Report) (s : State) : k.slot → Move k s (orderFrame r s)
  | withdraw (tag : Nat) (s : State) : k.slot → Move k s (withdrawOrders tag s)
  | pop (s : State) : Move k s (popInbound s)
  | overflow (b : Bool) (s : State) : Move k s { s with host := { s.host with overflow := b } }
  | write (p : StorePlace) (s : State) : Move k s (queueWrite p s)
  | launch (s : State) : Move k s (launchWrite s)
  | newSettings (c : Option ConfigFields) (r : Option (Nat × Nat)) (s : State) :
      Move k s { s with store := { s.store with newConfig := c, newCalibration := r } }
  | slab {id : Nat} {f : SlabRecord → SlabRecord} {s : State} : (∀ r, (f r).id = r.id) →
      (letsGo k s id ∨ ∀ r, r.state = .cutting → (f r).state = .cutting) → Move k s (mapSlab id f s)
  | counts (serial heard discarded refused : Nat) (sweep : Option Sweep) (s : State) :
      Move k s { s with register := { s.register with
        serial := serial, heard := heard, discarded := discarded, refused := refused, sweep := sweep } }
  | unreserve (n : Nat) (s : State) : Move k s (dropReservations n s)
  | heardSlab {id : Nat} (c : SlabContents) {s u : State} : findSlab s id = none → makeRoom s = some u →
      Move k s (makeSlab id c u)
  | enteredSlab (c : SlabContents) {s u : State} : makeRoom s = some u →
      Move k s (makeSlab (idToIssue u) c (advanceSerial (acceptWith 0x01 (.slabId (idToIssue u)) u)))
  | remnant (parent : Nat) (c : SlabContents) (r : Rect) (s : State) : Move k s (makeRemnant parent c r s).2
  | reserve {n : Nat} {s u : State} : reserve n s = some u → Move k s u
  | claim {h : Nat} {f : ClaimEntry → ClaimEntry} {s : State} : k.line →
      (∀ e, (f e).handle = e.handle ∧ (f e).resource = e.resource) →
      (claimsSound s → ∀ e, claimOf s h = some e → e.stage = .held → (f e).stage = .held) → Move k s (mapClaim h f s)
  | unclaim {h : Nat} {s : State} : k.line →
      (claimsSound s → ∀ e, claimOf s h = some e → e.stage = .held → letsGo k s e.resource) → Move k s (removeClaim h s)
  | conflict (n : Nat) (s : State) : k.line → Move k s { s with claims := { s.claims with conflicts := n } }
  | newClaim {resource : Nat} (purpose : ClaimPurpose) {s : State} : k.line → claimOn s resource = none →
      s.claims.entries.length < 8 → Move k s { s with claims := { s.claims with
        entries := s.claims.entries ++ [⟨s.claims.nextHandle, resource, purpose, .polling, 0, .unsent, none⟩]
        nextHandle := s.claims.nextHandle + 1 } }
  | enqueue {n : Notice} (owner : Option Nat) {s : State} : k.line →
      (n.kind = 4 → s.floor.queue.any isWaitingDemand = false) →
      Move k s { s with floor := (s.floor.enqueue n owner).1 }
  | demand (value : Nat) (s : State) : k.line →
      Move k s { s with floor := { s.floor with queue := replaceDemand value s.floor.queue } }
  | backlog (s : State) : k.line → Move k s (countBacklog s)
  | withdrawOwned (h : Nat) (s : State) : k.line → Move k s (withdrawOwned h s)
  | staged {x : Staged} {s : State} :
      (∀ p, x.plan? = some p → isSlabId p.slab = true ∨ ∃ q, s.staged.plan? = some q ∧ q.slab = p.slab) →
      Move k s { s with staged := x }
  | active (a : Active) (s : State) : k.slot → Move k s { s with active := a }
  | charge (c : Charge) (s : State) : Move k s { s with charge := c }
  | water (w : Water) (s : State) : Move k s { s with water := w }
  | sump (u : Sump) (s : State) : Move k s { s with sump := u }
  | peers {ps : List Peer} {s : State} : ps.length = s.peers.length → Move k s { s with peers := ps }
  | jobs {js : List (Option JobRecord)} {s : State} : js.length = s.jobs.length →
      (jobTableSound s.jobs → jobTableSound js) → Move k s { s with jobs := js }

/-- What operations do one after the other. -/
abbrev Moves (k : Scope) : State → State → Prop := Relation.ReflTransGen (Move k)

/-! ### What no such change touches -/

/-- The parts of the controller, the station and the queue of commands that only a command itself changes. -/
def sameControl (s t : State) : Prop :=
  t.pending = s.pending ∧ t.station = s.station ∧ t.settings = s.settings ∧ t.freeUses = s.freeUses ∧
    t.floor.attach = s.floor.attach ∧ t.floor.inStep = s.floor.inStep ∧ t.floor.listenIn = s.floor.listenIn ∧
    t.floor.window = s.floor.window ∧ t.floor.drive = s.floor.drive ∧ t.floor.lineOut = s.floor.lineOut

theorem sameControl.refl (s : State) : sameControl s s := by simp [sameControl]

theorem sameControl.trans {s t u : State} (h : sameControl s t) (h' : sameControl t u) : sameControl s u := by
  simp only [sameControl] at *
  simp_all

end Sys2Proof.Machine

namespace Sys2Proof.Machine

open Sys2Proof Sys2Proof.Safety

/-- R3: a record removed changes the register and the store alone. -/
theorem removeSlab_frame (id : Nat) (s : State) :
    removeSlab id s = { s with register := (removeSlab id s).register, store := (removeSlab id s).store } := by
  ext <;> simp

/-- R9: making room changes the register and the store alone. -/
theorem makeRoom_frame {s u : State} (h : makeRoom s = some u) :
    u = { s with register := u.register, store := u.store } := by
  unfold makeRoom at h
  split at h
  · obtain rfl := Option.some.inj h
    rfl
  · obtain ⟨r, -, rfl⟩ := Option.map_eq_some_iff.mp h
    exact removeSlab_frame r.id s

/-- R10: taking reservations changes the register and the store alone. -/
theorem reserve_frame {n : Nat} {s u : State} (h : reserve n s = some u) :
    u = { s with register := u.register, store := u.store } := by
  unfold reserve at h
  split at h
  · obtain rfl := Option.some.inj h
    simp only
    rw [evictUntil_frame]
  · cases h

/-- R161, R162: a notice handed to the queue changes the queue and the next age alone. -/
theorem Floor.enqueue_frame (f : Floor) (n : Notice) (owner : Option Nat) :
    (f.enqueue n owner).1 =
      { f with queue := (f.enqueue n owner).1.queue, nextAge := (f.enqueue n owner).1.nextAge } := by
  unfold enqueue
  simp only
  split
  · rfl
  · split
    · split <;> rfl
    · rfl

theorem Move.sameControl {k : Scope} {s t : State} (h : Move k s t) : sameControl s t := by
  cases h with
  | heardSlab c _ room =>
    have e := makeRoom_frame room
    rw [e]
    simp [Machine.sameControl]
  | enteredSlab c room =>
    have e := makeRoom_frame room
    rw [e]
    simp [Machine.sameControl]
  | reserve room =>
    rw [reserve_frame room]
    simp [Machine.sameControl]
  | enqueue owner =>
    rw [Floor.enqueue_frame]
    simp [Machine.sameControl]
  | _ => simp [Machine.sameControl, makeRemnant, removeClaim, mapClaim, countBacklog, Machine.withdrawOwned]

theorem Move.sameLine {k : Scope} {s t : State} (quiet : ¬ k.line) (h : Move k s t) :
    t.floor = s.floor ∧ t.claims = s.claims := by
  cases h with
  | heardSlab c _ room =>
    have e := makeRoom_frame room
    rw [e]
    simp
  | enteredSlab c room =>
    have e := makeRoom_frame room
    rw [e]
    simp
  | reserve room =>
    rw [reserve_frame room]
    simp
  | _ => simp_all [makeRemnant]

theorem Move.sameSlot {k : Scope} {s t : State} (quiet : ¬ k.slot) (h : Move k s t) : t.active = s.active := by
  cases h with
  | heardSlab c _ room =>
    have e := makeRoom_frame room
    rw [e]
    simp
  | enteredSlab c room =>
    have e := makeRoom_frame room
    rw [e]
    simp
  | reserve room =>
    rw [reserve_frame room]
  | _ => simp_all [makeRemnant]

end Sys2Proof.Machine

namespace Sys2Proof.Machine

open Sys2Proof Sys2Proof.Safety Relation

section Frames
variable {k : Scope} {s t : State}

theorem Moves.sameControl (h : Moves k s t) : sameControl s t := by
  induction h with
  | refl => exact Machine.sameControl.refl s
  | tail _ move ih => exact ih.trans move.sameControl

theorem Moves.trans {u : State} (h : Moves k s t) (h' : Moves k t u) : Moves k s u := ReflTransGen.trans h h'

/-- A run that goes on where a condition holds. -/
theorem Moves.thenIf {u : State} {c : Prop} [Decidable c] (h : Moves k s t) (h' : Moves k t u) :
    Moves k s (if c then u else t) := by
  split
  · exact h.trans h'
  · exact h

theorem Moves.attach (h : Moves k s t) : t.floor.attach = s.floor.attach := by
  obtain ⟨-, -, -, -, attach, -⟩ := h.sameControl
  exact attach

theorem Moves.sameLine (quiet : ¬ k.line) (h : Moves k s t) : t.floor = s.floor ∧ t.claims = s.claims := by
  induction h with
  | refl => exact ⟨rfl, rfl⟩
  | tail _ move ih => exact ⟨(move.sameLine quiet).1.trans ih.1, (move.sameLine quiet).2.trans ih.2⟩

theorem Moves.sameSlot (quiet : ¬ k.slot) (h : Moves k s t) : t.active = s.active := by
  induction h with
  | refl => rfl
  | tail _ move ih => exact (move.sameSlot quiet).trans ih

/-- A run that may hand notices goes on to, and one that may not leaves a muted station silent. -/
theorem Moves.voice (h : Moves k s t) (v : k.line ∨ mutedAndSilent s) : k.line ∨ mutedAndSilent t := by
  by_cases line : k.line
  · exact .inl line
  · obtain ⟨floor, claims⟩ := h.sameLine line
    refine .inr ?_
    rw [mutedAndSilent, floor, claims]
    exact v.resolve_left line

end Frames

section Silence
variable {s : State}

theorem claimOn_of_silent (h : mutedAndSilent s) (resource : Nat) : claimOn s resource = none := by
  simp [claimOn, h.2.2.2]

theorem claimOf_of_silent (h : mutedAndSilent s) (handle : Nat) : claimOf s handle = none := by
  simp [claimOf, h.2.2.2]

end Silence

/-! ### Reports and store writes -/

section Moves
variable {k : Scope}

theorem report_moves (r : Report) (s : State) (plain : r.isOrder = false := by rfl) : Moves k s (report r s) :=
  .single (.report s plain)

theorem trap_moves (x : Trap) (plan : Nat) (segment : Option Nat) (s : State) : Moves k s (trap x plan segment s) :=
  report_moves _ s

theorem acceptWith_moves (command : Nat) (fields : Accepted) (s : State) : Moves k s (acceptWith command fields s) :=
  report_moves _ s

theorem accept_moves (command : Nat) (s : State) : Moves k s (accept command s) := acceptWith_moves ..

theorem refuse_moves (command : Nat) (why : Reason) (s : State) : Moves k s (refuse command why s) := report_moves _ s

theorem reports_moves (rs : List Report) (s : State) (plain : ∀ r ∈ rs, r.isOrder = false) :
    Moves k s (reports rs s) := by
  induction rs generalizing s with
  | nil => exact .refl
  | cons r rest ih =>
    exact (report_moves r s (plain r (by simp))).trans (ih _ fun q hq => plain q (by simp [hq]))

theorem queueWrite_moves (p : StorePlace) (s : State) : Moves k s (queueWrite p s) := .single (.write p s)

theorem launchWrite_moves (s : State) : Moves k s (launchWrite s) := .single (.launch s)

/-! ### The slab register -/

theorem storeSlab_moves (id : Nat) (s : State) : Moves k s (storeSlab id s) := by
  unfold storeSlab
  cases slabPlace s id with
  | none => exact .refl
  | some i => exact queueWrite_moves (.slab i) s

theorem mapSlab_moves {id : Nat} {f : SlabRecord → SlabRecord} (s : State)
    (same : ∀ r, (f r).id = r.id ∧ (f r).state = r.state) : Moves k s (mapSlab id f s) :=
  .single (.slab (fun r => (same r).1) (.inr fun r cutting => (same r).2.trans cutting))

theorem setSlabState_moves {id : Nat} {st : SlabState} {s : State} (free : letsGo k s id ∨ st = .cutting) :
    Moves k s (setSlabState id st s) :=
  .trans (.single (.slab (f := fun r => { r with state := st }) (fun _ => rfl) (free.imp_right fun h _ _ => h)))
    (storeSlab_moves id _)

theorem setHolder_moves (id : Nat) (h : Option Nat) (s : State) : Moves k s (setHolder id h s) :=
  mapSlab_moves s fun _ => ⟨rfl, rfl⟩

theorem clearHolder_moves (id j : Nat) (s : State) : Moves k s (clearHolder id j s) :=
  mapSlab_moves s fun r => by split <;> exact ⟨rfl, rfl⟩

theorem stampSlab_moves (id : Nat) (s : State) : Moves k s (stampSlab id s) :=
  .trans (.single (.counts ..)) (mapSlab_moves _ fun _ => ⟨rfl, rfl⟩)

theorem countRefused_moves (s : State) : Moves k s (countRefused s) := .single (.counts ..)

theorem dropReservations_moves (n : Nat) (s : State) : Moves k s (dropReservations n s) := .single (.unreserve n s)

/-! ### Notices handed -/

theorem mapClaim_moves {h : Nat} {f : ClaimEntry → ClaimEntry} (s : State) (line : k.line)
    (same : ∀ e, (f e).handle = e.handle ∧ (f e).resource = e.resource ∧ (f e).stage = e.stage) :
    Moves k s (mapClaim h f s) :=
  .single (.claim line (fun e => ⟨(same e).1, (same e).2.1⟩) fun _ e _ held => (same e).2.2.trans held)

theorem claimSettles_moves (h : Nat) (s : State) (line : k.line) : Moves k s (claimSettles h s) :=
  mapClaim_moves s line fun _ => ⟨rfl, rfl, rfl⟩

theorem ownerDropped_moves (e : TxEntry) (s : State) (line : k.line) : Moves k s (ownerDropped e s) := by
  unfold ownerDropped
  split
  · split
    · exact .refl
    · exact claimSettles_moves _ s line
  · exact .refl

theorem handNotice_moves {n : Notice} (owner : Option Nat) {s : State} (line : k.line)
    (one : n.kind = 4 → s.floor.queue.any isWaitingDemand = false) : Moves k s (handNotice n owner s) := by
  have enqueued := Move.enqueue (k := k) owner line one
  unfold handNotice
  split
  · next f h =>
    rw [h] at enqueued
    exact .single enqueued
  · next f d h =>
    rw [h] at enqueued
    exact .trans (.single enqueued) (.trans (.single (.backlog _ line))
      (.trans (ownerDropped_moves d _ line) (trap_moves ..)))

theorem announce_moves {n : Notice} {s : State} (v : k.line ∨ mutedAndSilent s) (other : n.kind ≠ 4) :
    Moves k s (announce n s) := by
  unfold announce
  split
  · next speaks =>
    refine handNotice_moves none (v.resolve_right fun silent => ?_) fun h => absurd h other
    simp [silent.1] at speaks
  · exact .refl

theorem announceSlab_moves (id : Nat) {s : State} (v : k.line ∨ mutedAndSilent s) : Moves k s (announceSlab id s) :=
  announce_moves v (by simp [Notice.kind])

/-- A register that changes its counts and its sweep alone. -/
theorem sweep_moves (w : Option Sweep) (s : State) :
    Moves k s { s with register := { s.register with sweep := w } } := .single (.counts _ _ _ _ w s)

theorem sweepStep_moves (cursor : Nat) {s : State} (v : k.line ∨ mutedAndSilent s) :
    Moves k s (sweepStep cursor s) := by
  unfold sweepStep
  split
  · exact (sweep_moves _ s).trans (announceSlab_moves _ v)
  · exact sweep_moves _ s

/-! ### The cost table -/

theorem storeJob_moves (number : Nat) (s : State) : Moves k s (storeJob number s) := by
  unfold storeJob
  cases jobPlace s number with
  | none => exact .refl
  | some i => exact queueWrite_moves (.job i) s

end Moves

end Sys2Proof.Machine

namespace Sys2Proof.Machine

open Sys2Proof Sys2Proof.Safety Relation

/-! ### Sound cost tables -/

/-- R141, R146: what the table keeps of one record. -/
def recordSound (j : JobRecord) : Prop :=
  (0 < j.inUse → j.closed = false) ∧ (∀ n ∈ j.counts, n ≤ max32) ∧ totalHolds j

/-- R137: the record a number finds stands in the table under that number. -/
theorem findJob_eq_some {s : State} {number : Nat} {j : JobRecord} (h : findJob s number = some j) :
    some j ∈ s.jobs ∧ j.number = number := by
  obtain ⟨o, mem, found⟩ := List.exists_of_findSome?_eq_some h
  obtain ⟨rfl, same⟩ := Option.filter_eq_some_iff.mp found
  exact ⟨mem, by simpa using same⟩

/-- R137: no two records have one number. -/
theorem record_unique {jobs : List (Option JobRecord)} (distinct : ((jobs.filterMap fun o => o).map (·.number)).Nodup)
    {a b : JobRecord} (ha : some a ∈ jobs) (hb : some b ∈ jobs) (same : a.number = b.number) : a = b :=
  List.inj_on_of_nodup_map distinct (List.mem_filterMap.mpr ⟨_, ha, rfl⟩) (List.mem_filterMap.mpr ⟨_, hb, rfl⟩) same

/-- A change of the records that keeps their numbers and their soundness keeps the table's. -/
theorem jobTableSound_map {jobs : List (Option JobRecord)} {f : JobRecord → JobRecord} (sound : jobTableSound jobs)
    (keeps : ∀ j, some j ∈ jobs → (f j).number = j.number ∧ recordSound (f j)) :
    jobTableSound (jobs.map (Option.map f)) := by
  obtain ⟨distinct, -⟩ := sound
  refine ⟨?_, fun j mem => ?_⟩
  · have numbers : ((jobs.map (Option.map f)).filterMap fun o => o).map (·.number) =
        (jobs.filterMap fun o => o).map (·.number) := by
      rw [List.filterMap_map, List.map_filterMap, List.map_filterMap]
      refine List.filterMap_congr fun o mem => ?_
      cases o with
      | none => rfl
      | some j => simp [(keeps j mem).1]
    rwa [numbers]
  · obtain ⟨o, inTable, same⟩ := List.mem_map.mp mem
    obtain ⟨q, rfl, rfl⟩ := Option.map_eq_some_iff.mp same
    exact (keeps q inTable).2

section Jobs
variable {k : Scope}

/-- A change of the records of one number, each of which keeps its number and its soundness. -/
theorem mapJob_moves {number : Nat} {f : JobRecord → JobRecord} (s : State)
    (keeps : jobTableSound s.jobs → ∀ j, some j ∈ s.jobs → j.number = number →
      (f j).number = number ∧ recordSound (f j)) : Moves k s (mapJob number f s) := by
  refine .single (.jobs (by simp) fun sound => jobTableSound_map sound fun j mem => ?_)
  split
  · next same =>
    obtain ⟨number, recordSound⟩ := keeps sound j mem same
    exact ⟨number.trans same.symm, recordSound⟩
  · exact ⟨rfl, sound.2 j mem⟩

/-- R141: the counts and the total of a record do not look at its in-use count. -/
theorem recordSound_inUse {j : JobRecord} (n : Nat) (sound : recordSound j) (opened : 0 < n → j.closed = false) :
    recordSound { j with inUse := n } := ⟨opened, sound.2.1, sound.2.2⟩

theorem releaseJobs_moves (js : List Nat) (s : State) : Moves k s (releaseJobs js s) := by
  induction js generalizing s with
  | nil => exact .refl
  | cons n rest ih =>
    refine .trans (mapJob_moves (f := fun r => { r with inUse := r.inUse - 1 }) s fun sound j mem same => ⟨same, ?_⟩)
      (ih _)
    exact recordSound_inUse _ (sound.2 j mem) fun used => (sound.2 j mem).1 (by omega)

/-- R141: a hold or a release of a job leaves every job as OPEN as it was. -/
theorem jobOpen_mapJob {f : JobRecord → JobRecord} (keeps : ∀ j, (f j).number = j.number ∧ (f j).closed = j.closed)
    (changed number : Nat) (s : State) : jobOpen (mapJob changed f s) number = jobOpen s number := by
  unfold jobOpen findJob mapJob
  simp only
  induction s.jobs with
  | nil => rfl
  | cons o rest ih =>
    cases o with
    | none => simpa using ih
    | some j =>
      have number_eq : (if j.number = changed then f j else j).number = j.number := by
        split
        · exact (keeps j).1
        · rfl
      have closed_eq : (if j.number = changed then f j else j).closed = j.closed := by
        split
        · exact (keeps j).2
        · rfl
      rw [List.map_cons, Option.map_some, List.findSome?_cons, List.findSome?_cons, Option.filter_some,
        Option.filter_some, number_eq]
      by_cases same : j.number = number
      · simp [same, ← closed_eq]
      · simpa [same] using ih

theorem holdJobs_moves (js : List Nat) (s : State) (opened : ∀ n ∈ js, jobOpen s n = true) :
    Moves k s (holdJobs js s) := by
  induction js generalizing s with
  | nil => exact .refl
  | cons n rest ih =>
    refine .trans (mapJob_moves (f := fun r => { r with inUse := r.inUse + 1 }) s fun sound j mem same => ⟨same, ?_⟩)
      (ih _ fun m hm => ?_)
    · refine recordSound_inUse _ (sound.2 j mem) fun _ => ?_
      have isOpen := opened n (by simp)
      obtain ⟨q, found, closed⟩ := (Option.any_eq_true ..).mp isOpen
      obtain ⟨memq, numq⟩ := findJob_eq_some found
      rw [record_unique sound.1 mem memq (same.trans numq.symm)]
      simpa using closed
    · refine (jobOpen_mapJob ?_ n m s).trans (opened m (by simp [hm]))
      exact fun _ => ⟨rfl, rfl⟩

/-- R143, R144: an addition to a record: its number, its use and its state stay, and its counts stay within 32 bits. -/
def addsWithin (add : JobRecord → JobRecord) : Prop :=
  ∀ j, (∀ n ∈ j.counts, n ≤ max32) → (add j).number = j.number ∧ (add j).inUse = j.inUse ∧ (add j).closed = j.closed ∧
    ∀ n ∈ (add j).counts, n ≤ max32

theorem addPortion_addsWithin (p : Portion) (first : Bool) : addsWithin (JobRecord.addPortion p first) := by
  intro j within
  refine ⟨rfl, rfl, rfl, ?_⟩
  simp only [JobRecord.counts, JobRecord.addPortion, add32, satAdd, List.forall_mem_cons] at within ⊢
  simp [within]

theorem addMaterial_addsWithin (area cents : Nat) : addsWithin (JobRecord.addMaterial area cents) := by
  intro j within
  refine ⟨rfl, rfl, rfl, ?_⟩
  simp only [JobRecord.counts, JobRecord.addMaterial, add32, satAdd, List.forall_mem_cons] at within ⊢
  simp [within]

/-- R146: a record after a posting is sound again. -/
theorem recordSound_settle {add : JobRecord → JobRecord} (adds : addsWithin add) {j : JobRecord}
    (sound : recordSound j) : (j.settle (add j)).number = j.number ∧ recordSound (j.settle (add j)) := by
  obtain ⟨number, inUse, closed, within⟩ := adds j sound.2.1
  refine ⟨number, fun used => closed.trans (sound.1 (inUse ▸ used)), ?_, rfl⟩
  simp only [JobRecord.counts, List.forall_mem_cons] at within ⊢
  obtain ⟨h1, h2, h3, h4, h5, h6, h7, h8, h9, h10, h11, h12, h13, -⟩ := within
  refine ⟨h1, h2, h3, h4, h5, h6, h7, h8, h9, h10, h11, h12, h13, ?_, by simp⟩
  exact Nat.min_le_left ..

theorem postJob_moves (number : Nat) {add : JobRecord → JobRecord} (s : State) (adds : addsWithin add) :
    Moves k s (postJob number add s) := by
  unfold postJob
  split
  · exact .refl
  · next old found =>
    obtain ⟨mem, isNumber⟩ := findJob_eq_some found
    have posted : Moves k s (storeJob number (mapJob number (fun _ => old.settle (add old)) s)) := by
      refine .trans (mapJob_moves s fun sound j _ _ => ?_) (storeJob_moves ..)
      obtain ⟨kept, settled⟩ := recordSound_settle adds (sound.2 old mem)
      exact ⟨kept.trans isNumber, settled⟩
    simp only
    split <;> split
    · exact posted.trans ((trap_moves ..).trans (trap_moves ..))
    · exact posted.trans (trap_moves ..)
    · exact posted.trans (trap_moves ..)
    · exact posted

theorem postMaterial_moves (lines : List ShareLine) (s : State) : Moves k s (postMaterial lines s) := by
  induction lines generalizing s with
  | nil => exact .refl
  | cons l rest ih => exact (postJob_moves l.job s (addMaterial_addsWithin l.area l.cents)).trans (ih _)

end Jobs

end Sys2Proof.Machine

namespace Sys2Proof.Machine

open Sys2Proof Sys2Proof.Safety Relation

/-! ### Claim entries -/

/-- A change of one entry that keeps the handles leaves every entry under its handle. -/
theorem claimOf_mapClaim {f : ClaimEntry → ClaimEntry} (keeps : ∀ e, (f e).handle = e.handle) (g h : Nat) (s : State) :
    claimOf (mapClaim g f s) h = (claimOf s h).map fun e => if e.handle = g then f e else e := by
  have handle (e : ClaimEntry) : (if e.handle = g then f e else e).handle = e.handle := by
    split
    · exact keeps e
    · rfl
  simp only [claimOf, mapClaim, List.find?_map, Function.comp_def, handle]

/-- R22: a change of one entry that keeps handles and resources keeps the table as sound as it was. -/
theorem claimsSound_mapClaim_iff {f : ClaimEntry → ClaimEntry}
    (keeps : ∀ e, (f e).handle = e.handle ∧ (f e).resource = e.resource) (h : Nat) (s : State) :
    claimsSound (mapClaim h f s) ↔ claimsSound s := by
  have same (e : ClaimEntry) : (if e.handle = h then f e else e).handle = e.handle ∧
      (if e.handle = h then f e else e).resource = e.resource := by
    split
    · exact keeps e
    · exact ⟨rfl, rfl⟩
  simp only [claimsSound, mapClaim, List.length_map, List.map_map, Function.comp_def, same, List.forall_mem_map]

/-- An entry that is not HELD. -/
def notHeld (h : Nat) (s : State) : Prop := claimsSound s → ∀ e, claimOf s h = some e → e.stage ≠ .held

theorem notHeld_of_claimOf {h : Nat} {e : ClaimEntry} {s : State} (found : claimOf s h = some e)
    (other : e.stage ≠ .held) : notHeld h s := by
  intro _ q hq
  rw [found, Option.some.injEq] at hq
  exact hq ▸ other

theorem notHeld_mapClaim {h : Nat} {f : ClaimEntry → ClaimEntry} {s : State}
    (keeps : ∀ e, (f e).handle = e.handle ∧ (f e).resource = e.resource ∧ (f e).stage = e.stage)
    (other : notHeld h s) : notHeld h (mapClaim h f s) := by
  intro sound q found
  rw [claimOf_mapClaim fun e => (keeps e).1] at found
  obtain ⟨e, mem, rfl⟩ := Option.map_eq_some_iff.mp found
  have := other ((claimsSound_mapClaim_iff (fun e => ⟨(keeps e).1, (keeps e).2.1⟩) h s).mp sound) e mem
  split
  · rwa [(keeps e).2.2]
  · exact this

section Claims
variable {k : Scope}

/-- A change of the sump account alone. -/
theorem pressOutcome_moves (result : ClaimResult) (s : State) : Moves k s (pressOutcome result s) := by
  unfold pressOutcome
  split
  · cases result <;> exact .single (.sump ..)
  · exact .refl

theorem holderOnResult_moves (id : Nat) (result : ClaimResult) (station : Option Nat) (s : State) :
    Moves k s (holderOnResult id result station s) := by
  cases result
  case lineNoisy => exact .refl
  case muted => exact .refl
  all_goals exact setHolder_moves ..

theorem reportResult_moves (e : ClaimEntry) (result : ClaimResult) (station : Option Nat) (s : State) :
    Moves k s (reportResult e result station s) := by
  unfold reportResult
  split
  · exact (report_moves _ s).trans (holderOnResult_moves ..)
  · exact pressOutcome_moves ..

theorem endClaim_moves {h : Nat} (result : ClaimResult) (station : Option Nat) {s : State} (line : k.line)
    (other : notHeld h s) : Moves k s (endClaim h result station s) := by
  unfold endClaim
  split
  · exact .refl
  · exact .trans (.single (.unclaim line fun sound q found held => absurd held (other sound q found)))
      (reportResult_moves ..)

theorem claimNoisy_moves {h : Nat} {s : State} (line : k.line) (other : notHeld h s) :
    Moves k s (claimNoisy h s) := by
  unfold claimNoisy
  split
  · exact .refl
  · have ended := endClaim_moves .lineNoisy none line other
    simp only
    split
    · exact ended.trans (handNotice_moves none line (by simp [Notice.kind]))
    · exact ended

/-- A claim entry's poll counted. -/
theorem pollCounted_moves (h : Nat) (s : State) (line : k.line) :
    Moves k s (mapClaim h (fun e => { e with polls := e.polls + 1 }) s) :=
  mapClaim_moves s line fun _ => ⟨rfl, rfl, rfl⟩

theorem handPoll_moves (fuel : Nat) {h : Nat} {s : State} (line : k.line) (other : notHeld h s) :
    Moves k s (handPoll fuel h s) := by
  induction fuel generalizing s with
  | zero => exact .refl
  | succ fuel ih =>
    unfold handPoll
    split
    · exact .refl
    · next e found =>
      have counted := pollCounted_moves h s line
      have stillOther : notHeld h (mapClaim h (fun e => { e with polls := e.polls + 1 }) s) :=
        notHeld_mapClaim (fun _ => ⟨rfl, rfl, rfl⟩) other
      have enqueued : Move k _ _ := .enqueue (n := .poll e.resource) (some h)
        (s := mapClaim h (fun e => { e with polls := e.polls + 1 }) s) line (by simp [Notice.kind])
      simp only
      split
      · next f full =>
        rw [full] at enqueued
        exact counted.tail enqueued
      · next f d full =>
        rw [full] at enqueued
        refine .trans (.trans ((counted.tail enqueued).tail (.backlog _ line)) ?_) (trap_moves ..)
        split
        · split
          · exact ih stillOther
          · exact claimNoisy_moves line stillOther
        · exact ownerDropped_moves d _ line

theorem pollSpoiled_moves (h : Nat) {s : State} (v : k.line ∨ mutedAndSilent s) : Moves k s (pollSpoiled h s) := by
  unfold pollSpoiled
  split
  · exact .refl
  · next e found =>
    have line : k.line := v.resolve_right fun silent => by simp [claimOf_of_silent silent] at found
    split
    · exact .refl
    · next other =>
      have open' := notHeld_of_claimOf found other
      split
      · exact handPoll_moves 4 line open'
      · exact claimNoisy_moves line open'

theorem makeClaim_moves {resource : Nat} (purpose : ClaimPurpose) {s : State} (line : k.line)
    (free : claimOn s resource = none) (room : s.claims.entries.length < 8) :
    Moves k s (makeClaim resource purpose s) := by
  refine .head (.newClaim purpose line free room) (handPoll_moves 4 line fun sound e found => ?_)
  obtain ⟨mem, handle⟩ : e ∈ s.claims.entries ++ [_] ∧ _ := ⟨List.mem_of_find?_eq_some found, List.find?_some found⟩
  obtain old | new := List.mem_append.mp mem
  · obtain ⟨-, -, handles, -⟩ := sound
    rw [List.map_append, List.nodup_append] at handles
    exact absurd (beq_iff_eq.mp handle) (handles.2.2 _ (List.mem_map_of_mem old) _ (by simp))
  · rw [List.mem_singleton.mp new]
    simp

theorem yieldClaim_moves {h : Nat} (station : Nat) {s : State} (line : k.line) (other : notHeld h s) :
    Moves k s (yieldClaim h station s) :=
  .head (.withdrawOwned h s line) (endClaim_moves .claimLost _ line other)

theorem releaseClaim_moves {resource : Nat} {s : State} (v : k.line ∨ mutedAndSilent s) (free : letsGo k s resource) :
    Moves k s (releaseClaim resource s) := by
  unfold releaseClaim
  split
  · exact .refl
  · next e found =>
    have line : k.line := v.resolve_right fun silent => by simp [claimOn_of_silent silent] at found
    split
    · have mine : e.resource = resource := by simpa using List.find?_some found
      have gone : Move k s (removeClaim e.handle s) := .unclaim line fun sound q hq _ => by
        have handle : q.handle = e.handle := by simpa using List.find?_some hq
        have same : q = e := List.inj_on_of_nodup_map sound.2.2.1 (List.mem_of_find?_eq_some hq)
          (List.mem_of_find?_eq_some found) handle
        rwa [same, mine]
      have handed : Moves k s (handNotice (.release resource) none (removeClaim e.handle s)) :=
        .head gone (handNotice_moves none line (by simp [Notice.kind]))
      simp only
      split
      · exact handed.trans (setHolder_moves ..)
      · exact handed
    · exact .refl

/-! ### The sump account -/

theorem sump_moves (u : Sump) (s : State) : Moves k s { s with sump := u } := .single (.sump u s)

theorem pressRetry_moves (s : State) : Moves k s (pressRetry s) := sump_moves _ s

theorem pressIdle_moves (s : State) : Moves k s (pressIdle s) := sump_moves _ s

theorem requestPress_moves {s : State} (v : k.line ∨ mutedAndSilent s) : Moves k s (requestPress s) := by
  unfold requestPress
  split
  · exact pressOutcome_moves ..
  · next speaks =>
    split
    · exact pressRetry_moves s
    · split
      · exact pressRetry_moves s
      · next free =>
        split
        · exact pressRetry_moves s
        · next room =>
          exact makeClaim_moves .press (v.resolve_right fun silent => speaks silent.1) (by simpa using free)
            (by omega)

theorem wantPress_moves {s : State} (v : k.line ∨ mutedAndSilent s) : Moves k s (wantPress s) :=
  (sump_moves _ s).trans (requestPress_moves v)

theorem testThreshold_moves {s : State} (v : k.line ∨ mutedAndSilent s) : Moves k s (testThreshold s) := by
  unfold testThreshold
  split
  · exact wantPress_moves v
  · exact .refl

theorem setVolume_moves (n : Nat) (s : State) : Moves k s (setVolume n s) := by
  unfold setVolume
  split
  · exact .refl
  · exact (sump_moves _ s).trans (queueWrite_moves ..)

theorem addSolids_moves (n : Nat) {s : State} (v : k.line ∨ mutedAndSilent s) : Moves k s (addSolids n s) :=
  (setVolume_moves _ s).trans (testThreshold_moves ((setVolume_moves _ s).voice v))

end Claims

end Sys2Proof.Machine

namespace Sys2Proof.Machine

open Sys2Proof Sys2Proof.Safety Relation

/-! ### The water share unit and the plan slots -/

/-- R72, R73: no order is in flight in RUNNING: the plan slots do not answer the water share unit. -/
def slotRests (s : State) : Prop := s.active.state = .running → s.active.order = none

theorem planOnWater_of_slotRests {s : State} (rests : slotRests s) : planOnWater s = s := by
  unfold planOnWater
  split
  · rfl
  · next o order =>
    refine if_neg fun ⟨running, _⟩ => ?_
    simp [rests running] at order

section Plan
variable {k : Scope}

/-- A run that may change the slot goes on to, and one that may not leaves it at rest. -/
theorem Moves.rests {s t : State} (h : Moves k s t) (w : k.slot ∨ slotRests s) : k.slot ∨ slotRests t := by
  by_cases slot : k.slot
  · exact .inl slot
  · refine .inr ?_
    rw [slotRests, h.sameSlot slot]
    exact w.resolve_left slot

theorem active_moves (a : Active) (s : State) (slot : k.slot) : Moves k s { s with active := a } :=
  .single (.active a s slot)

theorem water_moves (w : Water) (s : State) : Moves k s { s with water := w } := .single (.water w s)

/-- The active slot changed as a function of what it held. -/
theorem mapActive_moves (f : Active → Active) (s : State) (slot : k.slot) :
    Moves k s { s with active := f s.active } := active_moves _ s slot

theorem addCause_moves (cause : Cause) (segment : Nat) (kind : OrderKind) (reached : Point) (s : State)
    (slot : k.slot) : Moves k s (addCause cause segment kind reached s) :=
  (active_moves _ s slot).trans (report_moves ..)

theorem orderFrame_moves (r : Report) (s : State) (slot : k.slot) : Moves k s (orderFrame r s) :=
  .single (.orderFrame r s slot)

theorem updateFeed_moves (o : Order) (s : State) (slot : k.slot) : Moves k s (updateFeed o s) := by
  unfold updateFeed
  split
  · exact .refl
  · split
    · exact .refl
    · exact (orderFrame_moves _ s slot).trans (active_moves _ _ slot)

theorem holdOrder_moves (o : Order) (s : State) (slot : k.slot) : Moves k s (holdOrder o s) :=
  (orderFrame_moves _ s slot).trans ((active_moves _ _ slot).trans (addCause_moves _ _ _ _ _ slot))

theorem planOnWater_moves {s : State} (w : k.slot ∨ slotRests s) : Moves k s (planOnWater s) := by
  obtain slot | rests := w
  · unfold planOnWater
    split
    · exact .refl
    · split
      · split
        · exact holdOrder_moves _ s slot
        · exact updateFeed_moves _ s slot
      · exact .refl
  · rw [planOnWater_of_slotRests rests]

theorem judgeDwell_moves (s : State) : Moves k s (judgeDwell s) := water_moves _ s

theorem recomputeWater_moves {s : State} (w : k.slot ∨ slotRests s) : Moves k s (recomputeWater s) := by
  have held := water_moves (k := k) (waterFigures s) s
  have told := planOnWater_moves (held.rests w)
  have answered : Moves k s (if (waterFigures s).allotment ≠ s.water.allotment ∨
      (waterFigures s).effective ≠ s.water.effective then planOnWater { s with water := waterFigures s }
      else { s with water := waterFigures s }) := held.thenIf told
  exact answered.thenIf (judgeDwell_moves _)

theorem sendDemand_moves {s : State} (v : k.line ∨ mutedAndSilent s) : Moves k s (sendDemand s) := by
  unfold sendDemand
  split
  · next active =>
    have line : k.line := v.resolve_right fun silent => by simp [silent.1] at active
    simp only
    split
    · exact .trans (.single (.demand _ s line)) (water_moves ..)
    · next none =>
      exact (handNotice_moves _ line fun _ => by simpa using none).trans (water_moves ..)
  · exact .refl

theorem tellWater_moves {s : State} (v : k.line ∨ mutedAndSilent s) (w : k.slot ∨ slotRests s) :
    Moves k s (tellWater s) := by
  unfold tellWater
  simp only
  split
  · exact judgeDwell_moves s
  · have own := water_moves (k := k) { s.water with own := ownDemandFor s } s
    have sent := own.trans (sendDemand_moves (own.voice v))
    exact (sent.trans (recomputeWater_moves (sent.rests w))).trans (judgeDwell_moves _)

theorem countsToIdle_moves (s : State) : Moves k s (countsToIdle s) := water_moves _ s

theorem releasePlan_moves (p : Plan) (s : State) : Moves k s (releasePlan p s) :=
  (dropReservations_moves ..).trans (releaseJobs_moves ..)

/-- R45: the staged slot given a plan on a slab that it held a plan on, or none. -/
theorem staged_moves {x : Staged} {s : State}
    (names : ∀ p, x.plan? = some p → isSlabId p.slab = true ∨ ∃ q, s.staged.plan? = some q ∧ q.slab = p.slab) :
    Moves k s { s with staged := x } := .single (.staged names)

theorem stagedEmpty_moves (s : State) : Moves k s { s with staged := .empty } :=
  staged_moves fun _ h => nomatch h

theorem discardStaged_moves (s : State) : Moves k s (discardStaged s) := by
  unfold discardStaged
  split
  · exact (stagedEmpty_moves s).trans (releasePlan_moves ..)
  · exact .refl
  · exact stagedEmpty_moves s
  · exact stagedEmpty_moves s
  · exact stagedEmpty_moves s

theorem stalePlan_moves (slab : Nat) (cause : StaleCause) (s : State) : Moves k s (stalePlan slab cause s) := by
  unfold stalePlan
  split
  · next p staged =>
    split
    · refine .trans (staged_moves fun q same => .inr ⟨p, by rw [staged]; rfl, ?_⟩)
        ((releasePlan_moves p _).trans (report_moves ..))
      obtain rfl := Option.some.inj same
      rfl
    · exact .refl
  · exact .refl
  · exact .refl
  · exact .refl
  · exact .refl

theorem setActiveState_moves (st : ActiveState) {s : State} (v : k.line ∨ mutedAndSilent s) (slot : k.slot) :
    Moves k s (setActiveState st s) :=
  (active_moves _ s slot).trans (tellWater_moves v (.inl slot))

theorem issueOrder_moves (s : State) (slot : k.slot) : Moves k s (issueOrder s) :=
  (active_moves _ s slot).trans (orderFrame_moves _ _ slot)

theorem pauseAtIssue_moves (cause : Cause) {s : State} (v : k.line ∨ mutedAndSilent s) (slot : k.slot) :
    Moves k s (pauseAtIssue cause s) :=
  have added := addCause_moves cause s.active.nextSeg (nextKind s) (nextStart s) s slot
  added.trans (setActiveState_moves _ (added.voice v) slot)

theorem issuePlan_moves {s : State} (v : k.line ∨ mutedAndSilent s) (slot : k.slot) : Moves k s (issuePlan s) := by
  unfold issuePlan
  split
  · exact pauseAtIssue_moves _ v slot
  · split
    · exact pauseAtIssue_moves _ v slot
    · exact issueOrder_moves s slot

theorem resumePlan_moves {s : State} (v : k.line ∨ mutedAndSilent s) (slot : k.slot) : Moves k s (resumePlan s) :=
  have running := setActiveState_moves .running v slot
  running.trans (issuePlan_moves (running.voice v) slot)

theorem setPending_moves (p : Pending) {s : State} (v : k.line ∨ mutedAndSilent s) (slot : k.slot) :
    Moves k s (setPending p s) := by
  have set := active_moves { s.active with pending := p } s slot
  unfold setPending
  simp only
  split
  · exact set.trans (resumePlan_moves v slot)
  · exact set.trans (tellWater_moves v (.inl slot))

theorem dwellEnded_moves {s : State} (v : k.line ∨ mutedAndSilent s) (slot : k.slot) : Moves k s (dwellEnded s) := by
  unfold dwellEnded
  split
  · exact setPending_moves _ v slot
  · exact .refl

theorem sumpCleared_moves {s : State} (v : k.line ∨ mutedAndSilent s) (slot : k.slot) :
    Moves k s (sumpCleared s) := by
  unfold sumpCleared
  split
  · exact setPending_moves _ v slot
  · exact .refl

theorem stopOrder_moves (o : Order) (s : State) (slot : k.slot) : Moves k s (stopOrder o s) :=
  (orderFrame_moves _ s slot).trans (active_moves _ _ slot)

theorem stopRunning_moves (o : Order) (cause : Cause) {s : State} (v : k.line ∨ mutedAndSilent s) (slot : k.slot) :
    Moves k s (stopRunning o cause s) :=
  have stopped := (stopOrder_moves o s slot).trans
    (active_moves { (stopOrder o s).active with fault := some (stopRecord s cause) } _ slot)
  stopped.trans (setActiveState_moves _ (stopped.voice v) slot)

/-- R123: the counts held with no order in flight go to the idle tallies. -/
theorem countsToIdle_if_moves (c : Prop) [Decidable c] (s : State) :
    Moves k s (if c then countsToIdle s else s) := Moves.thenIf .refl (countsToIdle_moves s)

/-- R89: an ABORTED plan as the water share unit is told of it. -/
def abortSettled (record : FaultRecord) (s : State) : State :=
  let s := { s with active := { s.active with state := .aborted, pending := Pending.none, fault := some record } }
  let s := setSlabState s.active.plan.slab .cutOpen s
  let s := dropReservations s.active.plan.reservations s
  let s := { s with active := { s.active with plan := { s.active.plan with reservations := 0 } } }
  if s.active.order.isNone then countsToIdle s else s

theorem abortSettled_moves (record : FaultRecord) {s : State} (slot : k.slot)
    (free : letsGo k s s.active.plan.slab) : Moves k s (abortSettled record s) := by
  have aborted := active_moves { s.active with state := .aborted, pending := Pending.none, fault := some record } s slot
  have cut := aborted.trans (setSlabState_moves (id := s.active.plan.slab) (st := .cutOpen) (.inl free))
  have dropped := cut.trans (dropReservations_moves s.active.plan.reservations _)
  have cleared := dropped.trans (mapActive_moves (fun a => { a with plan := { a.plan with reservations := 0 } }) _ slot)
  refine Moves.trans (t := _) ?_ (countsToIdle_if_moves _ _)
  simpa using cleared

theorem abortPlan_eq (record : FaultRecord) (s : State) :
    abortPlan record s = report (.planAborted record (abortSettled record s).active.nextSeg
      (chargedCount (abortSettled record s)) (abortSettled record s).active.actual)
      (tellWater (abortSettled record s)) := rfl

theorem abortPlan_moves (record : FaultRecord) {s : State} (v : k.line ∨ mutedAndSilent s) (slot : k.slot)
    (free : letsGo k s s.active.plan.slab) : Moves k s (abortPlan record s) := by
  have settled := abortSettled_moves record slot free
  rw [abortPlan_eq]
  exact (settled.trans (tellWater_moves (settled.voice v) (.inl slot))).trans (report_moves ..)

theorem endOrder_moves (s : State) (slot : k.slot) : Moves k s (endOrder s) := active_moves _ s slot

theorem dropOrder_moves (o : Order) (s : State) (slot : k.slot) : Moves k s (dropOrder o s) :=
  .trans (.single (.withdraw o.tag s slot)) ((endOrder_moves _ slot).trans (countsToIdle_moves _))

theorem emptyActive_moves (s : State) (slot : k.slot) : Moves k s (emptyActive s) := active_moves _ s slot

end Plan

end Sys2Proof.Machine

namespace Sys2Proof.Machine

open Sys2Proof Sys2Proof.Safety Relation

/-! ### What may be let go of -/

/-- R3: a change of one record, its id kept, is what its lookup shows. -/
theorem findSlab_mapSlab {f : SlabRecord → SlabRecord} (keeps : ∀ r, (f r).id = r.id) (changed id : Nat) (s : State) :
    findSlab (mapSlab changed f s) id = (findSlab s id).map fun r => if r.id = changed then f r else r := by
  unfold findSlab mapSlab
  simp only
  induction s.register.places with
  | nil => rfl
  | cons o rest ih =>
    cases o with
    | none => simpa using ih
    | some r =>
      have same : (if r.id = changed then f r else r).id = r.id := by
        split
        · exact keeps r
        · rfl
      rw [List.map_cons, Option.map_some, List.findSome?_cons, List.findSome?_cons, Option.filter_some,
        Option.filter_some, same]
      by_cases mine : r.id = id
      · simp [mine]
      · simpa [mine] using ih

/-- R62: a staged plan that goes STALE leaves every record. -/
theorem stalePlan_places (slab : Nat) (cause : StaleCause) (s : State) :
    (stalePlan slab cause s).register.places = s.register.places := by
  unfold stalePlan
  split
  · split
    · rw [report_register, releasePlan, releaseJobs_only_jobs]
      rfl
    · rfl
  · rfl
  · rfl
  · rfl
  · rfl

section Free
variable {k : Scope} {s t : State} {id : Nat}

theorem letsGo_of_none (h : k.kept = none) : letsGo k s id := fun kept => by simp [h] at kept

theorem letsGo_of_other (h : k.kept ≠ some id) : letsGo k s id := fun kept => absurd kept h

theorem letsGo_of_press (n : Nat) : letsGo k s (pressId n) := fun _ slab => by
  have small : pressId n ≤ 63487 := by
    simp only [isSlabId, Bool.and_eq_true] at slab
    simpa using slab.1
  simp only [pressId] at small
  omega

theorem letsGo_of_found {r : SlabRecord} (found : findSlab s id = some r) (other : r.state ≠ .cutting) :
    letsGo k s id := by
  intro _ _ q hq
  rw [found, Option.some.injEq] at hq
  exact hq ▸ other

theorem letsGo.congr (h : letsGo k s id) (same : t.register = s.register) : letsGo k t id := by
  unfold letsGo findSlab at *
  rwa [same]

theorem findSlab_congr (same : t.register.places = s.register.places) : findSlab t id = findSlab s id := by
  unfold findSlab
  rw [same]

/-- R6: a record in a state other than CUTTING may be let go of. -/
theorem letsGo_setSlabState {st : SlabState} (other : st ≠ .cutting) : letsGo k (setSlabState id st s) id := by
  intro _ _ r hr
  have stored : findSlab (setSlabState id st s) id = findSlab (mapSlab id (fun r => { r with state := st }) s) id :=
    findSlab_congr (by simp [setSlabState])
  rw [stored, findSlab_mapSlab (f := fun r => { r with state := st }) (fun _ => rfl)] at hr
  obtain ⟨q, hq, rfl⟩ := Option.map_eq_some_iff.mp hr
  rw [if_pos]
  · exact other
  · obtain ⟨o, -, found⟩ := List.exists_of_findSome?_eq_some hq
    simpa using (Option.filter_eq_some_iff.mp found).2

theorem letsGo_stampSlab (h : letsGo k s id) (n : Nat) : letsGo k (stampSlab n s) id := by
  intro kept slab r hr
  simp only [stampSlab, findSlab_mapSlab (f := fun r => { r with heard := add32 s.register.heard 1 }) fun _ => rfl] at hr
  obtain ⟨q, hq, rfl⟩ := Option.map_eq_some_iff.mp hr
  have other := h kept slab q hq
  split
  · exact other
  · exact other

end Free

section Plan
variable {k : Scope}

theorem clearAborted_moves (slab : Nat) {s : State} (v : k.line ∨ mutedAndSilent s) (slot : k.slot)
    (free : letsGo k s slab) : Moves k s (clearAborted slab s) := by
  unfold clearAborted
  split
  · have released := releaseJobs_moves (k := k) (distinctJobs s.active.plan.pieces) s
    have let_go := released.trans (releaseClaim_moves (released.voice v) (free.congr (by rw [releaseJobs_only_jobs])))
    simp only
    split
    · exact (let_go.trans (dropOrder_moves _ _ slot)).trans (emptyActive_moves _ slot)
    · exact let_go.trans (emptyActive_moves _ slot)
  · exact .refl

theorem slabGone_moves (slab : Nat) {s : State} (v : k.line ∨ mutedAndSilent s) (slot : k.slot)
    (free : letsGo k s slab) : Moves k s (slabGone slab s) := by
  have staled := stalePlan_moves (k := k) slab .gone s
  refine staled.trans (clearAborted_moves slab (staled.voice v) slot fun kept isSlab r hr => ?_)
  rw [findSlab_congr (stalePlan_places ..)] at hr
  exact free kept isSlab r hr

theorem takePulses_moves (s : State) : Moves k s (takePulses s) :=
  .trans (.single (.charge (takePulses s).charge s)) (water_moves (takePulses s).water _)

theorem chargePortion_moves (o : Order) (length time : Nat) {s : State} (v : k.line ∨ mutedAndSilent s)
    (slot : k.slot) : Moves k s (chargePortion o length time s) := by
  have taken := takePulses_moves (k := k) s
  have posted := taken.trans (postJob_moves (s.active.plan.jobOf (s.active.plan.segmentAt o.segment)) _
    (addPortion_addsWithin (portionFor s o length time) (!s.active.charged.getD o.segment false)))
  have added := posted.trans (addSolids_moves (portionFor s o length time).solids (posted.voice v))
  have flagged := added.trans (mapActive_moves (fun a => { a with
    actual := add32 a.actual (portionFor s o length time).cost, charged := a.charged.set o.segment true }) _ slot)
  exact flagged.thenIf (trap_moves ..)

/-! ### Completion -/

theorem makeRemnants_moves (parent : Nat) (c : SlabContents) (rs : List Rect) (s : State) :
    Moves k s (makeRemnants parent c rs s).2 := by
  induction rs generalizing s with
  | nil => exact .refl
  | cons r rest ih => exact .trans (.single (.remnant parent c r s)) (ih _)

theorem announceSlabs_moves (ids : List Nat) {s : State} (v : k.line ∨ mutedAndSilent s) :
    Moves k s (ids.foldl (fun s id => announceSlab id s) s) := by
  induction ids generalizing s with
  | nil => exact .refl
  | cons id rest ih =>
    have first := announceSlab_moves id v
    exact first.trans (ih (first.voice v))

theorem judgeEstimate_moves (actual estimated : Nat) (s : State) : Moves k s (judgeEstimate actual estimated s) :=
  Moves.thenIf .refl (trap_moves ..)

end Plan

end Sys2Proof.Machine

namespace Sys2Proof.Machine

open Sys2Proof Sys2Proof.Safety Relation

/-! ### Completion, part by part -/

/-- R91: the shares of a plan that completes. -/
def completionLines (s : State) : List ShareLine :=
  apportion (contentsOf s s.active.plan.slab) s.active.plan.pieces (remnantArea s.active.plan.remnants)

/-- R91: the shares posted and added to the actual total. -/
def materialPosted (s : State) : State :=
  let t := postMaterial (completionLines s) s
  { t with active := { t.active with
    actual := (completionLines s).foldl (fun t l => add32 t l.cents) t.active.actual } }

/-- R91: the remnants made, with their ids. -/
def remnantsMade (s : State) : List Nat × State :=
  makeRemnants s.active.plan.slab (contentsOf s s.active.plan.slab) s.active.plan.remnants (materialPosted s)

/-- R91: the remnants announced, the slab GONE and retired, its claim and the in-use counts let go. -/
def slabSettled (s : State) : State :=
  releaseJobs (distinctJobs s.active.plan.pieces) (releaseClaim s.active.plan.slab
    (announce (.retire s.active.plan.slab 0) (setSlabState s.active.plan.slab .gone
      ((remnantsMade s).1.foldl (fun s id => announceSlab id s) (remnantsMade s).2))))

/-- R91: the slot DONE. -/
def planDone (s : State) : State :=
  setActiveState .done { slabSettled s with active := { (slabSettled s).active with
    pending := Pending.none
    plan := { s.active.plan with reservations := s.active.plan.reservations - s.active.plan.remnants.length } } }

/-- R91: what is reported of a plan completed. -/
theorem completePlan_eq (s : State) : completePlan s =
    judgeEstimate (reports ((completionLines s).map (.completeLine s.active.plan.number))
        (report (.planComplete s.active.plan.number s.active.plan.slab (remnantsMade s).1 (planDone s).active.actual
          (completionLines s).length) (planDone s))).active.actual (s.active.plan.estimate.elim 0 (·.total))
      (reports ((completionLines s).map (.completeLine s.active.plan.number))
        (report (.planComplete s.active.plan.number s.active.plan.slab (remnantsMade s).1 (planDone s).active.actual
          (completionLines s).length) (planDone s))) := rfl

section Plan
variable {k : Scope}

theorem materialPosted_moves (s : State) (slot : k.slot) : Moves k s (materialPosted s) :=
  (postMaterial_moves (completionLines s) s).trans (mapActive_moves
    (fun a => { a with actual := (completionLines s).foldl (fun t l => add32 t l.cents) a.actual }) _ slot)

theorem slabSettled_moves {s : State} (v : k.line ∨ mutedAndSilent s) (slot : k.slot) (none : k.kept = none) :
    Moves k s (slabSettled s) := by
  have posted := materialPosted_moves s slot
  have made := posted.trans (makeRemnants_moves s.active.plan.slab (contentsOf s s.active.plan.slab)
    s.active.plan.remnants _)
  have announced := made.trans (announceSlabs_moves (remnantsMade s).1 (made.voice v))
  have gone := announced.trans (setSlabState_moves (id := s.active.plan.slab) (st := .gone) (.inl (letsGo_of_none none)))
  have retired := gone.trans (announce_moves (n := .retire s.active.plan.slab 0) (gone.voice v) (by simp [Notice.kind]))
  have released := retired.trans (releaseClaim_moves (resource := s.active.plan.slab) (retired.voice v)
    (letsGo_of_none none))
  exact released.trans (releaseJobs_moves (distinctJobs s.active.plan.pieces) _)

theorem planDone_moves {s : State} (v : k.line ∨ mutedAndSilent s) (slot : k.slot) (none : k.kept = none) :
    Moves k s (planDone s) := by
  have settled := slabSettled_moves v slot none
  have emptied := settled.trans (mapActive_moves (fun a => { a with
    pending := Pending.none
    plan := { s.active.plan with reservations := s.active.plan.reservations - s.active.plan.remnants.length } }) _ slot)
  exact emptied.trans (setActiveState_moves .done (emptied.voice v) slot)

theorem completePlan_moves {s : State} (v : k.line ∨ mutedAndSilent s) (slot : k.slot) (none : k.kept = none) :
    Moves k s (completePlan s) := by
  rw [completePlan_eq]
  have done := (planDone_moves v slot none).trans (report_moves (.planComplete s.active.plan.number s.active.plan.slab
    (remnantsMade s).1 (planDone s).active.actual (completionLines s).length) _)
  refine (done.trans (reports_moves _ _ ?_)).trans (judgeEstimate_moves ..)
  simp [Report.isOrder]

theorem advanceSegment_moves (s : State) (slot : k.slot) : Moves k s (advanceSegment s) := active_moves _ s slot

theorem goOn_moves {s : State} (v : k.line ∨ mutedAndSilent s) (slot : k.slot) : Moves k s (goOn s) := by
  unfold goOn
  split
  · exact issuePlan_moves v slot
  · exact setActiveState_moves _ v slot

theorem recordProgress_moves (o : Order) (length : Nat) (s : State) (slot : k.slot) :
    Moves k s (recordProgress o length s) := by
  unfold recordProgress
  split
  · exact active_moves _ s slot
  · exact advanceSegment_moves s slot

/-! ### What is heard -/

theorem setPeer_moves (n : Nat) (p : Peer) (s : State) : Moves k s (setPeer n p s) := by
  unfold setPeer
  split
  · exact .refl
  · exact .single (.peers (by simp))

theorem peerHeard_moves (n : Nat) (demand : Option Nat) {s : State} (v : k.line ∨ mutedAndSilent s)
    (w : k.slot ∨ slotRests s) : Moves k s (peerHeard n demand s) := by
  have set := setPeer_moves (k := k) n ((peerOf s n).afterNotice demand) s
  have shared : Moves k s (if (peerOf s n).presence ≠ .present ∨ demand.isSome then
      recomputeWater (setPeer n ((peerOf s n).afterNotice demand) s)
      else setPeer n ((peerOf s n).afterNotice demand) s) := set.thenIf (recomputeWater_moves (set.rests w))
  exact shared.thenIf (sweepStep_moves 0 (shared.voice v))

theorem setBusy_moves (n : Nat) (busy : Bool) (s : State) : Moves k s (setBusy n busy s) := setPeer_moves ..

theorem claim_of_silent {s : State} {resource : Nat} {e : ClaimEntry} (v : k.line ∨ mutedAndSilent s)
    (found : claimOn s resource = some e) : k.line :=
  v.resolve_right fun silent => by simp [claimOn_of_silent silent] at found

/-- R22: an entry found on a resource is the one its handle names. -/
theorem notHeld_of_claimOn {s : State} {resource : Nat} {e : ClaimEntry} (found : claimOn s resource = some e)
    (other : e.stage ≠ .held) : notHeld e.handle s := by
  intro sound q hq
  have handle : q.handle = e.handle := by simpa using List.find?_some hq
  have same : q = e := List.inj_on_of_nodup_map sound.2.2.1 (List.mem_of_find?_eq_some hq)
    (List.mem_of_find?_eq_some found) handle
  exact same ▸ other

theorem contestClaim_moves (n resource : Nat) {e : ClaimEntry} {s : State} (line : k.line)
    (found : claimOn s resource = some e) : Moves k s (contestClaim n e s) := by
  unfold contestClaim
  split
  · exact .refl
  · next tentative =>
    split
    · exact yieldClaim_moves n line (notHeld_of_claimOn found (by simp [tentative]))
    · exact .refl
  · exact .single (.conflict _ s line)

theorem onClaim_moves (n resource : Nat) {s : State} (v : k.line ∨ mutedAndSilent s) :
    Moves k s (onClaim n resource s) := by
  unfold onClaim
  split
  · split
    · exact setHolder_moves ..
    · next e found => exact contestClaim_moves n resource (claim_of_silent v found) found
  · split
    · split
      · exact setBusy_moves ..
      · next e found =>
        refine (setBusy_moves n true s).trans (contestClaim_moves n resource (claim_of_silent v found) ?_)
        rw [← found]
        unfold claimOn
        rw [setBusy, setPeer_claims]
    · exact .refl

theorem onRelease_moves (n resource : Nat) (s : State) : Moves k s (onRelease n resource s) := by
  unfold onRelease
  split
  · exact clearHolder_moves ..
  · split
    · exact setBusy_moves ..
    · exact .refl

/-- R14: a slab retired elsewhere that is not CUTTING. -/
theorem retired_moves (slab : Nat) {s : State} (v : k.line ∨ mutedAndSilent s) (slot : k.slot)
    (free : letsGo k s slab) : Moves k s (slabGone slab (stampSlab slab (setSlabState slab .gone s))) := by
  have gone := (setSlabState_moves (k := k) (st := .gone) (.inl free)).trans (stampSlab_moves slab _)
  exact gone.trans (slabGone_moves slab (gone.voice v) slot
    (letsGo_stampSlab (letsGo_setSlabState (by simp)) slab))

theorem onRetire_moves (slab : Nat) {s : State} (v : k.line ∨ mutedAndSilent s) (slot : k.slot) :
    Moves k s (onRetire slab s) := by
  unfold onRetire
  split
  · exact countRefused_moves s
  · split
    · exact .refl
    · next r found =>
      split
      · next stock => exact retired_moves slab v slot (letsGo_of_found found (by simp [stock]))
      · next cutOpen => exact retired_moves slab v slot (letsGo_of_found found (by simp [cutOpen]))
      · exact stampSlab_moves ..
      · exact countRefused_moves s

theorem discardNotice_moves (slab : Nat) (s : State) : Moves k s (discardNotice slab s) :=
  .trans (.single (.counts ..)) (trap_moves ..)

theorem replaceContents_moves (slab : Nat) (c : SlabContents) (s : State) :
    Moves k s (replaceContents slab c s) :=
  have replaced := mapSlab_moves (k := k) (id := slab) (f := fun r => { r with contents := c }) s fun _ => ⟨rfl, rfl⟩
  ((replaced.trans (stampSlab_moves slab _)).trans (storeSlab_moves slab _)).trans (stalePlan_moves slab .changed _)

theorem onSlab_moves (slab : Nat) (c : SlabContents) (s : State) : Moves k s (onSlab slab c s) := by
  unfold onSlab
  split
  · exact countRefused_moves s
  · split
    · next none =>
      split
      · next u room => exact .single (.heardSlab c none room)
      · exact discardNotice_moves slab s
    · split
      · split
        · exact stampSlab_moves ..
        · exact replaceContents_moves slab c s
      · exact countRefused_moves s
      · exact countRefused_moves s
      · exact countRefused_moves s

theorem onHello_moves (n : Nat) (f : Fingerprint) (s : State) : Moves k s (onHello n f s) := by
  unfold onHello
  split
  · exact .refl
  · exact (setPeer_moves ..).thenIf (trap_moves ..)

end Plan

end Sys2Proof.Machine

/-! PROOF. The active slot and its order frames: what each operation leaves of them. -/

namespace Sys2Proof.Machine

open Sys2Proof Sys2Proof.Safety Relation

/-! ### Order frames in the outbound queue -/

/-- R71: an order frame that waits unread. -/
def waitsUnread (f : Outbound) : Bool := !f.begun && f.report.isOrder

/-- R71: the order frames of a queue that wait unread. -/
def unreadOf (q : List Outbound) : List Report := (q.filter waitsUnread).map (·.report)

theorem unreadOrders_eq (s : State) : unreadOrders s = unreadOf s.host.outbound := rfl

@[simp] theorem unreadOf_nil : unreadOf [] = [] := rfl

theorem unreadOf_append (p q : List Outbound) : unreadOf (p ++ q) = unreadOf p ++ unreadOf q := by simp [unreadOf]

theorem unreadOf_cons (f : Outbound) (q : List Outbound) :
    unreadOf (f :: q) = if waitsUnread f then f.report :: unreadOf q else unreadOf q := by
  unfold unreadOf
  rw [List.filter_cons]
  split <;> rfl

theorem isOrder_of_updateTag {r : Report} {tag : Nat} (h : r.updateTag = some tag) :
    r.isOrder = true ∧ r.orderTag = some tag := by
  cases r <;> simp_all [Report.updateTag, Report.isOrder, Report.orderTag]

/-- R71: an order frame handed: in the place of the update frame of its tag, at the tail where none waits, or not at all. -/
def frameHanded (r : Report) (old new : List Report) : Prop :=
  new = old ∨ (new = old ++ [r] ∧ ∀ x ∈ old, ∀ tag, r.updateTag = some tag → x.updateTag ≠ some tag) ∨
    ∃ before x after, old = before ++ x :: after ∧ new = before ++ r :: after ∧ r.updateTag.isSome ∧
      x.updateTag = r.updateTag

theorem unreadOf_replaceUpdate {r : Report} {tag : Nat} (mine : r.updateTag = some tag) {q : List Outbound}
    (waits : q.any (isUnreadUpdate tag) = true) :
    ∃ before x after, unreadOf q = before ++ x :: after ∧
      unreadOf (replaceUpdate r tag q) = before ++ r :: after ∧ x.updateTag = some tag := by
  have new : waitsUnread ⟨r, false⟩ = true := by simp [waitsUnread, (isOrder_of_updateTag mine).1]
  induction q with
  | nil => simp at waits
  | cons f rest ih =>
    unfold replaceUpdate
    split
    · next this =>
      obtain ⟨unread, update⟩ : f.begun = false ∧ f.report.updateTag = some tag := by
        simpa [isUnreadUpdate] using this
      have old : waitsUnread f = true := by simp [waitsUnread, unread, (isOrder_of_updateTag update).1]
      exact ⟨[], f.report, unreadOf rest, by simp [unreadOf_cons, old], by simp [unreadOf_cons, new], update⟩
    · next other =>
      obtain ⟨before, x, after, split, replaced, update⟩ := ih (by simpa [other] using waits)
      by_cases unread : waitsUnread f = true
      · exact ⟨f.report :: before, x, after, by simp [unreadOf_cons, unread, split],
          by simp [unreadOf_cons, unread, replaced], update⟩
      · exact ⟨before, x, after, by simp [unreadOf_cons, unread, split],
          by simp [unreadOf_cons, unread, replaced], update⟩

theorem frameHanded_orderFrame {r : Report} (order : r.isOrder = true) (s : State) :
    frameHanded r (unreadOrders s) (unreadOrders (orderFrame r s)) := by
  have appended : unreadOf (s.host.outbound ++ [⟨r, false⟩]) = unreadOf s.host.outbound ++ [r] := by
    simp [unreadOf_append, unreadOf_cons, waitsUnread, order]
  obtain h | h := orderFrame_cases r s
  · rw [unreadOrders_eq, unreadOrders_eq, h]
    simp only
    unfold withOrderFrame
    split
    · next tag mine =>
      split
      · next waits =>
        obtain ⟨before, x, after, split, replaced, update⟩ := unreadOf_replaceUpdate mine waits
        exact .inr (.inr ⟨before, x, after, split, replaced, by simp [mine], update.trans mine.symm⟩)
      · next none =>
        refine .inr (.inl ⟨appended, fun x mem other hother update => none ?_⟩)
        obtain ⟨f, inQueue, rfl⟩ := List.mem_map.mp mem
        obtain ⟨inQueue, unread⟩ := List.mem_filter.mp inQueue
        obtain rfl : tag = other := Option.some.inj (mine.symm.trans hother)
        refine List.any_eq_true.mpr ⟨f, inQueue, ?_⟩
        simp only [waitsUnread, Bool.and_eq_true] at unread
        simp [isUnreadUpdate, update, unread.1]
    · next plain =>
      exact .inr (.inl ⟨appended, fun x _ tag mine => by simp [plain] at mine⟩)
  · rw [h]
    exact .inl rfl

/-- R71: the frames that wait for an order: none without one; with one its tag's alone, at most one SEGMENT ORDER and one
update. -/
def framesFit (order : Option Order) (frames : List Report) : Prop :=
  (∀ r ∈ frames, ∃ o, order = some o ∧ r.orderTag = some o.tag) ∧
    (frames.filter (·.updateTag.isNone)).length ≤ 1 ∧ (frames.filter (·.updateTag.isSome)).length ≤ 1

theorem framesFit_nil (order : Option Order) : framesFit order [] := by simp [framesFit]

theorem framesFit_none {frames : List Report} (h : framesFit none frames) : frames = [] := by
  refine List.eq_nil_iff_forall_not_mem.mpr fun r mem => ?_
  obtain ⟨o, none, -⟩ := h.1 r mem
  exact nomatch none

theorem framesFit.sublist {order : Option Order} {new old : List Report} (h : framesFit order old)
    (sub : new.Sublist old) : framesFit order new :=
  ⟨fun r mem => h.1 r (sub.subset mem), ((sub.filter _).length_le).trans h.2.1, ((sub.filter _).length_le).trans h.2.2⟩

/-- R71: an update frame of the order in flight handed. -/
theorem framesFit.update {o p : Order} {r : Report} {old new : List Report} (h : framesFit (some o) old)
    (mine : r.updateTag = some o.tag) (same : p.tag = o.tag) (handed : frameHanded r old new) :
    framesFit (some p) new := by
  obtain ⟨tags, orders, updates⟩ := h
  have tags' : ∀ x ∈ old, x.orderTag = some o.tag := by
    intro x mem
    obtain ⟨q, same, tag⟩ := tags x mem
    rwa [Option.some.inj same]
  have mineTag := (isOrder_of_updateTag mine).2
  suffices fits : (∀ x ∈ new, x.orderTag = some o.tag) ∧ (new.filter (·.updateTag.isNone)).length ≤ 1 ∧
      (new.filter (·.updateTag.isSome)).length ≤ 1 from
    ⟨fun x mem => ⟨p, rfl, by rw [same]; exact fits.1 x mem⟩, fits.2⟩
  obtain rfl | ⟨rfl, none⟩ | ⟨before, x, after, rfl, rfl, -, update⟩ := handed
  · exact ⟨tags', orders, updates⟩
  · have noUpdate : old.filter (·.updateTag.isSome) = [] := by
      refine List.filter_eq_nil_iff.mpr fun x mem some => ?_
      obtain ⟨tag, hx⟩ := Option.isSome_iff_exists.mp some
      have := tags' x mem
      rw [(isOrder_of_updateTag hx).2, Option.some.injEq] at this
      exact none x mem o.tag mine (by rw [hx, this])
    refine ⟨?_, ?_, ?_⟩
    · simp only [List.mem_append, List.mem_singleton]
      rintro x (mem | rfl)
      · exact tags' x mem
      · exact mineTag
    · simpa [mine] using orders
    · simp [noUpdate, mine]
  · refine ⟨?_, ?_, ?_⟩
    · intro y mem
      obtain mem | rfl | mem : y ∈ before ∨ y = r ∨ y ∈ after := by simpa using mem
      · exact tags' y (by simp [mem])
      · exact mineTag
      · exact tags' y (by simp [mem])
    · simpa [List.filter_cons, mine, update] using orders
    · simpa [List.filter_cons, mine, update] using updates

/-! ### What leaves the slot alone -/

theorem Move.sameFrames {k : Scope} {s t : State} (quiet : ¬ k.slot) (h : Move k s t) :
    unreadOrders t = unreadOrders s := by
  cases h with
  | report _ plain =>
    rename_i r
    obtain ⟨-, e⟩ | ⟨-, e⟩ := report_cases r s
    · rw [e, unreadOrders_eq]
      simp [unreadOf_append, unreadOf_cons, waitsUnread, plain, unreadOrders_eq]
    · rw [e]
      rfl
  | heardSlab c _ room =>
    have e := makeRoom_frame room
    rw [unreadOrders_eq, e]
    simp [unreadOrders_eq]
  | enteredSlab c room =>
    have e := makeRoom_frame room
    rename_i u
    have host : u.host = s.host := by rw [e]
    obtain ⟨-, f⟩ | ⟨-, f⟩ := report_cases (.accepted 0x01 (.slabId (idToIssue u))) u
    · rw [unreadOrders_eq, acceptWith, f]
      simp [unreadOf_append, unreadOf_cons, waitsUnread, Report.isOrder, unreadOrders_eq, host]
    · rw [unreadOrders_eq, acceptWith, f]
      simp [unreadOrders_eq, host]
  | reserve room =>
    rw [unreadOrders_eq, reserve_frame room]
    rfl
  | pop => rfl
  | _ => simp_all [makeRemnant, unreadOrders_eq]

theorem Moves.sameFrames {k : Scope} {s t : State} (quiet : ¬ k.slot) (h : Moves k s t) :
    unreadOrders t = unreadOrders s := by
  induction h with
  | refl => rfl
  | tail _ move ih => exact (move.sameFrames quiet).trans ih

end Sys2Proof.Machine

namespace Sys2Proof.Machine

open Sys2Proof Sys2Proof.Safety Relation

/-- A run that may touch everything but the active slot. -/
def Scope.quiet : Scope := ⟨False, True, none⟩

/-- The active slot and its order frames are as they were. -/
def calm (s t : State) : Prop := t.active = s.active ∧ unreadOrders t = unreadOrders s

theorem calm.refl (s : State) : calm s s := ⟨rfl, rfl⟩

theorem calm.trans {s t u : State} (h : calm s t) (h' : calm t u) : calm s u :=
  ⟨h'.1.trans h.1, h'.2.trans h.2⟩

theorem Moves.calm {s t : State} (h : Moves Scope.quiet s t) : calm s t := ⟨h.sameSlot id, h.sameFrames id⟩

/-- R72, R73: what a new allotment does to the slot: nothing, or an update of the RUNNING order that is not stopped. -/
def waterAnswer (s t : State) : Prop :=
  calm s t ∨ ∃ o p r, s.active.state = .running ∧ s.active.order = some o ∧ o.stopped = false ∧
    (p.tag = o.tag ∧ p.segment = o.segment ∧ p.start = o.start ∧ p.stopped = false) ∧
    t.active = { s.active with order := some p, pending := t.active.pending, fault := t.active.fault } ∧
    r.updateTag = some o.tag ∧ frameHanded r (unreadOrders s) (unreadOrders t)

theorem waterAnswer.after {s t u : State} (h : waterAnswer s t) (h' : calm t u) : waterAnswer s u := by
  obtain h | ⟨o, p, r, running, order, unstopped, same, active, tag, handed⟩ := h
  · exact .inl (h.trans h')
  · refine .inr ⟨o, p, r, running, order, unstopped, same, ?_, tag, ?_⟩
    · rw [h'.1]
      exact active
    · rw [h'.2]
      exact handed

theorem waterAnswer.before {s t u : State} (h : calm s t) (h' : waterAnswer t u) : waterAnswer s u := by
  obtain h' | ⟨o, p, r, running, order, unstopped, same, active, tag, handed⟩ := h'
  · exact .inl (h.trans h')
  · rw [h.1] at running order active
    rw [h.2] at handed
    exact .inr ⟨o, p, r, running, order, unstopped, same, active, tag, handed⟩

theorem planOnWater_answers (s : State) : waterAnswer s (planOnWater s) := by
  unfold planOnWater
  split
  · exact .inl (calm.refl s)
  · next o order =>
    split
    · next answers =>
      obtain ⟨running, -, unstopped⟩ := answers
      split
      · refine .inr ⟨o, { o with held := true }, .holdOrder o.tag o.segment, running, order, unstopped,
          ⟨rfl, rfl, rfl, unstopped⟩, ?_, rfl, ?_⟩
        · simp [holdOrder, addCause]
        · have handed := frameHanded_orderFrame (r := .holdOrder o.tag o.segment) rfl s
          rw [holdOrder, addCause, (report_moves (k := Scope.quiet) _ _).calm.2]
          exact handed
      · unfold updateFeed
        split
        · exact .inl (calm.refl s)
        · next f _ =>
          split
          · exact .inl (calm.refl s)
          · refine .inr ⟨o, { o with feed := f, water := s.water.effective },
              .feedUpdate o.tag o.segment f s.water.effective, running, order, unstopped,
              ⟨rfl, rfl, rfl, unstopped⟩, ?_, rfl, ?_⟩
            · simp
            · exact frameHanded_orderFrame (r := .feedUpdate o.tag o.segment f s.water.effective) rfl s
    · exact .inl (calm.refl s)

theorem judgeDwell_calm (s : State) : calm s (judgeDwell s) := ⟨rfl, rfl⟩

theorem recomputeWater_answers (s : State) : waterAnswer s (recomputeWater s) := by
  have held : calm s { s with water := waterFigures s } := ⟨rfl, rfl⟩
  have told := (planOnWater_answers { s with water := waterFigures s }).before held
  have answered : waterAnswer s (if (waterFigures s).allotment ≠ s.water.allotment ∨
      (waterFigures s).effective ≠ s.water.effective then planOnWater { s with water := waterFigures s }
      else { s with water := waterFigures s }) := by
    split
    · exact told
    · exact .inl held
  unfold recomputeWater
  simp only
  split
  · exact answered.after (judgeDwell_calm _)
  · exact answered

theorem tellWater_answers (s : State) : waterAnswer s (tellWater s) := by
  unfold tellWater
  simp only
  split
  · exact .inl (judgeDwell_calm s)
  · have sent : calm s (sendDemand { s with water := { s.water with own := ownDemandFor s } }) :=
      ((water_moves _ s).trans (sendDemand_moves (.inl trivial))).calm
    exact ((recomputeWater_answers _).before sent).after (judgeDwell_calm _)

/-- R67: told of a slot with no order in RUNNING, the water share unit leaves it as it is. -/
theorem tellWater_calm {s : State} (rests : slotRests s) : calm s (tellWater s) :=
  (tellWater_moves (.inl trivial) (.inr rests)).calm

/-! ### What an answer keeps -/

section Answers
variable {s t : State}

theorem waterAnswer.state (h : waterAnswer s t) : t.active.state = s.active.state := by
  obtain h | ⟨o, p, r, -, -, -, -, active, -⟩ := h
  · rw [h.1]
  · rw [active]

theorem waterAnswer.plan (h : waterAnswer s t) : t.active.plan = s.active.plan := by
  obtain h | ⟨o, p, r, -, -, -, -, active, -⟩ := h
  · rw [h.1]
  · rw [active]

end Answers

end Sys2Proof.Machine

namespace Sys2Proof.Machine

open Sys2Proof Sys2Proof.Safety Relation

/-! ### What a command may do to the active slot -/

/-- R67: a plan is in work. -/
def planLive (s : State) : Prop :=
  s.active.state = .running ∨ s.active.state = .paused ∨ s.active.state = .ending

/-- R81: a PAUSED plan has a cause pending. -/
def pausedWaits (s : State) : Prop := s.active.state = .paused → s.active.pending ≠ ⟨false, false, false, false, false⟩

/-- R68: the tag stays, and an order in flight is the one there was. -/
def tagKept (s t : State) : Prop :=
  t.active.tag = s.active.tag ∧ ∀ o, t.active.order = some o →
    ∃ p, s.active.order = some p ∧ o.tag = p.tag ∧ o.segment = p.segment ∧ o.start = p.start

/-- R68: the tag advances with a new order. -/
def tagAdvanced (s t : State) : Prop :=
  t.active.tag = (s.active.tag + 1) % 256 ∧ ∃ o, t.active.order = some o ∧ o.tag = t.active.tag

/-- R71: what waits unread is of the order in flight. -/
def framesWait (s : State) : Prop := framesFit s.active.order (unreadOrders s)

/-- R90: an ABORTED slot keeps an order when muted alone. -/
def abortedKeepsOrder (s : State) : Prop := s.active.state = .aborted ∧ s.active.order ≠ none

/-- R67 to R90: what a command that starts no plan and mutes no station does to the active slot, `apart` being that it is
one of those. -/
structure slotGoes (apart : Prop) (s t : State) : Prop where
  tag : tagKept s t ∨ tagAdvanced s t
  paused : pausedWaits s → pausedWaits t
  fits : orderFits s → orderFits t
  frames : orderFits s → orderFramesWait s → framesWait t
  aborted : orderFits s → abortedKeepsOrder t → abortedKeepsOrder s ∨ apart
  live : planLive t → (planLive s ∧ t.active.plan.slab = s.active.plan.slab) ∨ apart

section Calm
variable {apart : Prop} {s t u : State}

theorem orderFits_congr (h : t.active = s.active) : orderFits t ↔ orderFits s := by simp only [orderFits, h]

theorem tagKept.refl (s : State) : tagKept s s := ⟨rfl, fun o h => ⟨o, h, rfl, rfl, rfl⟩⟩

theorem slotGoes.congr_right (h : slotGoes apart s t) (same : calm t u) : slotGoes apart s u := by
  obtain ⟨tag, paused, fits, frames, aborted, live⟩ := h
  obtain ⟨active, unread⟩ := same
  constructor
  · simpa only [tagKept, tagAdvanced, active] using tag
  · simpa only [pausedWaits, active] using paused
  · simpa only [orderFits, active] using fits
  · simpa only [framesWait, active, unread] using frames
  · simpa only [abortedKeepsOrder, active] using aborted
  · simpa only [planLive, active] using live

theorem slotGoes.of_calm (same : calm s t) : slotGoes apart s t := by
  refine slotGoes.congr_right (t := s) ⟨.inl (tagKept.refl s), id, id, fun _ h => h.2, fun _ h => .inl h, fun h => ?_⟩ same
  exact .inl ⟨h, rfl⟩

theorem slotGoes.of_answer (h : waterAnswer s t) : slotGoes apart s t := by
  obtain same | ⟨o, p, r, running, order, unstopped, ⟨tag, segment, start, stillOn⟩, active, mine, handed⟩ := h
  · exact .of_calm same
  · have stillRunning : t.active.state = .running := by rw [active]; exact running
    have newOrder : t.active.order = some p := by rw [active]
    constructor
    · refine .inl ⟨by rw [active], fun q hq => ⟨o, order, ?_⟩⟩
      obtain rfl : p = q := Option.some.inj (newOrder.symm.trans hq)
      exact ⟨tag, segment, start⟩
    · intro _ paused
      simp [stillRunning] at paused
    · intro fits
      unfold orderFits at fits ⊢
      rw [active]
      simp only [running, order] at fits ⊢
      exact ⟨by simp [stillOn], fits.2⟩
    · intro _ waits
      rw [framesWait, newOrder]
      have old := waits.2
      rw [order] at old
      exact framesFit.update old mine tag handed
    · intro _ aborted
      have := aborted.1
      simp [stillRunning] at this
    · exact fun _ => .inl ⟨.inl running, by rw [active]⟩

end Calm

/-! ### The slot in another state -/

/-- R67, R111: the slot set to a state in which the water share unit finds no order to answer. -/
theorem setActiveState_calm {st : ActiveState} {s : State} (rests : st = .running → s.active.order = none) :
    calm { s with active := { s.active with state := st } } (setActiveState st s) :=
  tellWater_calm rests

theorem setActiveState_state (st : ActiveState) (s : State) : (setActiveState st s).active.state = st :=
  (tellWater_answers _).state

theorem addCause_calm (cause : Cause) (segment : Nat) (kind : OrderKind) (reached : Point) (s : State) :
    ∃ f, calm { s with active := { s.active with pending := s.active.pending.add cause, fault := some f } }
      (addCause cause segment kind reached s) :=
  ⟨_, (report_moves (k := Scope.quiet) _ _).calm⟩

/-- R81: the causes that hold a plan PAUSED. -/
def pauses (cause : Cause) : Prop := ∀ p : Pending, p.add cause ≠ ⟨false, false, false, false, false⟩

theorem pauses_waterShort : pauses .waterShort := fun p => by simp [Pending.add]
theorem pauses_sumpFull : pauses .sumpFull := fun p => by simp [Pending.add]
theorem pauses_machinePause : pauses .machinePause := fun p => by simp [Pending.add]

theorem pauses_of_report {code : Nat} {cause : Cause} (h : causeOfCode code = some cause)
    (h' : cause.isAbortClass = false) : pauses cause := by
  unfold causeOfCode at h
  split at h <;> cases h
  · exact fun p => by simp [Pending.add]
  · exact fun p => by simp [Pending.add]
  · cases h'
  · cases h'

/-- R81: a plan PAUSED by a cause, with the record open. -/
def pausedBy (cause : Cause) (f : FaultRecord) (s : State) : State :=
  { s with active := { s.active with state := .paused, pending := s.active.pending.add cause, fault := some f } }

/-- R69, R76, R77: a cause added and the plan PAUSED: no order is in flight unless there was one. -/
theorem pausedWith_calm (cause : Cause) (segment : Nat) (kind : OrderKind) (reached : Point) (s : State) :
    ∃ f, calm (pausedBy cause f s) (setActiveState .paused (addCause cause segment kind reached s)) := by
  obtain ⟨f, active, unread⟩ := addCause_calm cause segment kind reached s
  refine ⟨f, calm.trans (t := { addCause cause segment kind reached s with
    active := { (addCause cause segment kind reached s).active with state := .paused } }) ⟨?_, ?_⟩
    (setActiveState_calm (by simp))⟩
  · simp only [active, pausedBy]
  · exact unread

/-- R69: the issue pauses the plan with a cause, or issues the order. -/
theorem issuePlan_cases (s : State) :
    (∃ cause f, pauses cause ∧ calm (pausedBy cause f s) (issuePlan s)) ∨
    issuePlan s = issueOrder s := by
  unfold issuePlan
  split
  · obtain ⟨f, same⟩ := pausedWith_calm .waterShort s.active.nextSeg (nextKind s) (nextStart s) s
    exact .inl ⟨_, f, pauses_waterShort, same⟩
  · split
    · obtain ⟨f, same⟩ := pausedWith_calm .sumpFull s.active.nextSeg (nextKind s) (nextStart s) s
      exact .inl ⟨_, f, pauses_sumpFull, same⟩
    · exact .inr rfl

/-- R67: a slot with no order and no timer of one. -/
def orderless (s : State) : Prop := s.active.order = none ∧ s.active.overrun = none ∧ s.active.stopWait = none

/-- R69, R70: the issue, of a plan made ready from a state `s`, its tag still that of `s`. -/
theorem slotGoes.issue {s u : State} (running : u.active.state = .running) (tag : tagKept s u)
    (ready : orderFits s → orderless u ∧ (orderFramesWait s → unreadOrders u = [])) {apart : Prop}
    (live : (planLive s ∧ u.active.plan.slab = s.active.plan.slab) ∨ apart) : slotGoes apart s (issuePlan u) := by
  obtain ⟨cause, f, waits, same⟩ | issued := issuePlan_cases u
  · refine slotGoes.congr_right (t := pausedBy cause f u)
      ⟨.inl tag, fun _ _ => waits _, ?_, ?_, ?_, fun _ => live⟩ same
    · intro fits
      exact (ready fits).1
    · intro fits unread
      have unread : unreadOrders (pausedBy cause f u) = [] := (ready fits).2 unread
      rw [framesWait, unread]
      exact framesFit_nil _
    · rintro _ ⟨paused, -⟩
      exact nomatch (show ActiveState.paused = .aborted from paused)
  · rw [issued]
    have active : (issueOrder u).active = { u.active with
        order := some (buildOrder u), tag := (buildOrder u).tag, resume := none, fault := none
        overrun := some (overrunTime (buildOrder u).expected) } := by simp [issueOrder]
    constructor
    · refine .inr ⟨?_, buildOrder u, by rw [active], by rw [active]⟩
      rw [active, ← tag.1]
      rfl
    · intro _ paused
      rw [active] at paused
      simp [running] at paused
    · intro fits
      obtain ⟨-, -, stopWait⟩ := (ready fits).1
      unfold orderFits
      rw [active]
      simp [running, stopWait, buildOrder]
    · intro fits unread
      have handed : frameHanded (.segmentOrder (buildOrder u) (nextSegment u).bevel) (unreadOrders u)
          (unreadOrders (issueOrder u)) := frameHanded_orderFrame rfl _
      rw [(ready fits).2 unread] at handed
      rw [framesWait, active]
      obtain none | ⟨one, -⟩ | ⟨before, x, after, split, -⟩ := handed
      · rw [none]
        exact framesFit_nil _
      · rw [one]
        simp [framesFit, Report.orderTag, Report.updateTag]
      · simp at split
    · rintro - ⟨aborted, -⟩
      rw [active] at aborted
      simp [running] at aborted
    · intro _
      rw [active]
      exact live

end Sys2Proof.Machine

namespace Sys2Proof.Machine

open Sys2Proof Sys2Proof.Safety Relation

section Changes
variable {apart : Prop} {s t u : State}

theorem waterAnswer.tagKept (h : waterAnswer s t) : tagKept s t := by
  obtain same | ⟨o, p, r, -, order, -, ⟨tag, segment, start, -⟩, active, -⟩ := h
  · rw [Machine.tagKept, same.1]
    exact tagKept.refl s
  · refine ⟨by rw [active], fun q hq => ⟨o, order, ?_⟩⟩
    rw [active] at hq
    obtain rfl : p = q := Option.some.inj hq
    exact ⟨tag, segment, start⟩

/-- What a command does from a state whose slot differs in what these rules do not read. -/
theorem slotGoes.congr_left (h : slotGoes apart u t) (state : u.active.state = s.active.state)
    (order : u.active.order = s.active.order) (overrun : u.active.overrun = s.active.overrun)
    (stopWait : u.active.stopWait = s.active.stopWait) (tag : u.active.tag = s.active.tag)
    (slab : u.active.plan.slab = s.active.plan.slab) (unread : unreadOrders u = unreadOrders s)
    (paused : pausedWaits s → pausedWaits u) (silent : mutedAndSilent s → mutedAndSilent u) : slotGoes apart s t := by
  have fits : orderFits s → orderFits u := by
    unfold orderFits
    rw [state, order, overrun, stopWait]
    exact id
  obtain ⟨tags, waits, stays, frames, aborted, live⟩ := h
  constructor
  · simpa only [tagKept, tagAdvanced, order, tag] using tags
  · exact waits ∘ paused
  · exact stays ∘ fits
  · refine fun h hw => frames (fits h) ⟨?_, ?_⟩
    · rw [state, order]
      exact fun a b => silent (hw.1 a b)
    · rw [order, unread]
      exact hw.2
  · simpa only [abortedKeepsOrder, state, order] using fun h => aborted (fits h)
  · simpa only [planLive, state, slab] using live

theorem slotGoes.after_calm (same : calm s u) (silent : mutedAndSilent s → mutedAndSilent u)
    (h : slotGoes apart u t) : slotGoes apart s t := by
  obtain ⟨active, unread⟩ := same
  exact h.congr_left (by rw [active]) (by rw [active]) (by rw [active]) (by rw [active]) (by rw [active])
    (by rw [active]) unread (by rw [pausedWaits, pausedWaits, active]; exact id) silent

theorem unread_of_orderless (waits : orderFramesWait s) (none : s.active.order = none) : unreadOrders s = [] :=
  framesFit_none (none ▸ waits.2)

theorem orderless_of_fits (fits : orderFits s)
    (state : s.active.state = .empty ∨ s.active.state = .paused ∨ s.active.state = .done) : orderless s := by
  unfold orderFits at fits
  unfold orderless
  obtain h | h | h := state
  · simpa only [h] using fits
  · simpa only [h] using fits
  · simpa only [h] using fits

/-! ### The pending set -/

/-- R85: a PAUSED plan resumed, its set emptied. -/
theorem slotGoes.resumed (p : Pending) (paused : s.active.state = .paused) :
    slotGoes apart s (resumePlan { s with active := { s.active with pending := p } }) := by
  have told := tellWater_answers { s with active := { s.active with pending := p, state := .running } }
  refine slotGoes.issue (u := setActiveState .running _) (setActiveState_state _ _) ?_ ?_ ?_
  · exact ⟨told.tagKept.1, told.tagKept.2⟩
  · intro fits
    obtain ⟨order, overrun, stopWait⟩ := orderless_of_fits fits (.inr (.inl paused))
    obtain ⟨active, unread⟩ := setActiveState_calm (st := .running)
      (s := { s with active := { s.active with pending := p } }) fun _ => order
    have none : orderFramesWait s → unreadOrders s = [] := fun waits => unread_of_orderless waits order
    refine ⟨?_, fun waits => unread.trans (none waits)⟩
    rw [orderless, active]
    exact ⟨order, overrun, stopWait⟩
  · exact .inl ⟨.inr (.inl paused), congrArg Plan.slab told.plan⟩

theorem slotGoes.setPending (p : Pending) (s : State) : slotGoes apart s (Machine.setPending p s) := by
  unfold Machine.setPending
  simp only
  split
  · next empties => exact slotGoes.resumed p empties.1
  · next stays =>
    refine (slotGoes.of_answer (tellWater_answers _)).congr_left rfl rfl rfl rfl rfl rfl rfl ?_ id
    intro _ paused none
    simp only at none
    exact stays ⟨paused, by rw [none]; rfl⟩

theorem slotGoes.dwellEnded (s : State) : slotGoes apart s (Machine.dwellEnded s) := by
  unfold Machine.dwellEnded
  split
  · exact .setPending _ s
  · exact .of_calm (calm.refl s)

theorem slotGoes.sumpCleared (s : State) : slotGoes apart s (Machine.sumpCleared s) := by
  unfold Machine.sumpCleared
  split
  · exact .setPending _ s
  · exact .of_calm (calm.refl s)

/-! ### An order stopped -/

/-- R86, R87: a RUNNING plan's order stopped, its overrun timer being over or not. -/
theorem slotGoes.stopRunning {o : Order} (cause : Cause) (running : s.active.state = .running)
    (order : s.active.order = some o) (timer : ∃ v, u.active = { s.active with overrun := v })
    (unread : unreadOrders u = unreadOrders s) : slotGoes apart s (Machine.stopRunning o cause u) := by
  obtain ⟨v, active⟩ := timer
  have stopped : (stopOrder o u).active = { s.active with
      order := some { o with stopped := true }, overrun := none, stopWait := some 10000 } := by
    simp [stopOrder, active]
  have handed : frameHanded (.stopOrder o.tag o.segment) (unreadOrders u) (unreadOrders (stopOrder o u)) :=
    frameHanded_orderFrame rfl u
  have ending := setActiveState_calm (st := .ending)
    (s := { stopOrder o u with active := { (stopOrder o u).active with fault := some (stopRecord u cause) } }) (by simp)
  refine slotGoes.congr_right ?_ ending
  simp only [stopped]
  constructor
  · refine .inl ⟨rfl, fun q hq => ⟨o, order, ?_⟩⟩
    obtain rfl := Option.some.inj hq
    exact ⟨rfl, rfl, rfl⟩
  · exact fun _ paused => nomatch (show ActiveState.ending = .paused from paused)
  · exact fun _ => ⟨rfl, rfl, rfl⟩
  · intro _ waits
    have old := waits.2
    rw [order] at old
    rw [unread] at handed
    exact framesFit.update (p := { o with stopped := true }) old rfl rfl handed
  · exact fun _ aborted => nomatch (show ActiveState.ending = .aborted from aborted.1)
  · exact fun _ => .inl ⟨.inl running, rfl⟩

/-! ### Going ABORTED -/

/-- R89: the slot of a plan gone ABORTED. -/
def abortedWith (record : FaultRecord) (s : State) : State :=
  { s with active := { s.active with
      state := .aborted, pending := Pending.none, fault := some record
      plan := { s.active.plan with reservations := 0 } } }

theorem abortSettled_active (record : FaultRecord) (s : State) :
    (abortSettled record s).active = (abortedWith record s).active := by
  unfold abortSettled
  simp only
  split
  · simp [abortedWith, countsToIdle]
  · simp [abortedWith]

theorem abortSettled_unread (record : FaultRecord) (s : State) :
    unreadOrders (abortSettled record s) = unreadOrders s := by
  unfold abortSettled
  simp only
  split
  · simp [unreadOrders_eq, countsToIdle]
  · simp [unreadOrders_eq]

theorem abortPlan_calm (record : FaultRecord) (s : State) : calm (abortedWith record s) (abortPlan record s) := by
  have settled : calm (abortedWith record s) (abortSettled record s) :=
    ⟨abortSettled_active record s, abortSettled_unread record s⟩
  have told := tellWater_calm (s := abortSettled record s) fun running => by
    rw [settled.1] at running
    exact nomatch (show ActiveState.aborted = .running from running)
  rw [abortPlan_eq]
  exact (settled.trans told).trans (report_moves (k := Scope.quiet) _ _).calm

theorem abortPlan_state (record : FaultRecord) (s : State) : (abortPlan record s).active.state = .aborted := by
  rw [(abortPlan_calm record s).1]
  rfl

/-- R89: a plan in whatever state goes ABORTED with no order in flight, or with a stopped one and its stop wait. -/
theorem slotGoes.abortPlan (record : FaultRecord) (tag : tagKept s u)
    (fits : orderFits s → u.active.overrun = none ∧ u.active.order.all (·.stopped) = true ∧
      u.active.stopWait.isSome = u.active.order.isSome)
    (frames : orderFits s → orderFramesWait s → framesWait u)
    (order : orderFits s → u.active.order = none ∨ apart) : slotGoes apart s (Machine.abortPlan record u) := by
  refine slotGoes.congr_right (t := abortedWith record u) ?_ (abortPlan_calm record u)
  constructor
  · exact .inl tag
  · exact fun _ paused => nomatch (show ActiveState.aborted = .paused from paused)
  · exact fits
  · exact frames
  · exact fun h kept => .inr ((order h).resolve_left kept.2)
  · rintro (h | h | h)
    · exact nomatch (show ActiveState.aborted = .running from h)
    · exact nomatch (show ActiveState.aborted = .paused from h)
    · exact nomatch (show ActiveState.aborted = .ending from h)

/-! ### Completion -/

/-- R91: what a completed plan leaves of the slot. -/
theorem completePlan_calm (s : State) : ∃ a p, calm { s with active := { s.active with
    state := .done, pending := Pending.none, actual := a, plan := p } } (completePlan s) := by
  have posted : calm { s with active := { s.active with actual := (materialPosted s).active.actual } }
      (materialPosted s) := by
    obtain ⟨active, unread⟩ := (postMaterial_moves (k := Scope.quiet) (completionLines s) s).calm
    refine ⟨?_, unread⟩
    simp only [materialPosted, active]
  have settled : calm (materialPosted s) (slabSettled s) := by
    have made := makeRemnants_moves (k := Scope.quiet) s.active.plan.slab (contentsOf s s.active.plan.slab)
      s.active.plan.remnants (materialPosted s)
    have announced := made.trans (announceSlabs_moves (remnantsMade s).1 (.inl trivial))
    have gone := announced.trans (setSlabState_moves (id := s.active.plan.slab) (st := .gone)
      (.inl (letsGo_of_none rfl)))
    have retired := gone.trans (announce_moves (n := .retire s.active.plan.slab 0) (.inl trivial) (by simp [Notice.kind]))
    have released := retired.trans (releaseClaim_moves (resource := s.active.plan.slab) (.inl trivial)
      (letsGo_of_none rfl))
    exact (released.trans (releaseJobs_moves (distinctJobs s.active.plan.pieces) _)).calm
  obtain ⟨active, unread⟩ := posted.trans settled
  have done := setActiveState_calm (st := .done) (s := { slabSettled s with active := { (slabSettled s).active with
    pending := Pending.none
    plan := { s.active.plan with reservations := s.active.plan.reservations - s.active.plan.remnants.length } } })
    (by simp)
  have reported : calm (planDone s) (completePlan s) := by
    rw [completePlan_eq]
    refine ((report_moves _ _).trans ((reports_moves _ _ ?_).trans (judgeEstimate_moves ..))).calm
    simp [Report.isOrder]
  obtain ⟨active', unread'⟩ := done.trans reported
  refine ⟨(materialPosted s).active.actual, { s.active.plan with
    reservations := s.active.plan.reservations - s.active.plan.remnants.length }, ?_, unread'.trans unread⟩
  rw [active']
  simp only [active]

theorem completePlan_state (s : State) : (completePlan s).active.state = .done := by
  obtain ⟨a, p, active, -⟩ := completePlan_calm s
  rw [active]

end Changes

end Sys2Proof.Machine

namespace Sys2Proof.Machine

open Sys2Proof Sys2Proof.Safety Relation

/-! ### An order ended -/

/-- R74, R88: the order in flight has ended, its unread frames are withdrawn, and the slot stands as it was otherwise. -/
structure orderEnded (s u : State) : Prop where
  state : u.active.state = s.active.state
  tag : u.active.tag = s.active.tag
  order : orderless u
  slab : u.active.plan.slab = s.active.plan.slab
  pending : u.active.pending = s.active.pending
  unread : orderFramesWait s → unreadOrders u = []

section Ended
variable {apart : Prop} {s t u : State}

theorem orderEnded.tagKept (h : orderEnded s u) : tagKept s u :=
  ⟨h.tag, fun o ho => by simp [h.order.1] at ho⟩

theorem orderEnded.after_calm (h : orderEnded s t) (same : calm t u) : orderEnded s u := by
  obtain ⟨state, tag, order, slab, pending, unread⟩ := h
  obtain ⟨active, frames⟩ := same
  exact ⟨by rw [active, state], by rw [active, tag], by rw [orderless, active]; exact order, by rw [active, slab],
    by rw [active, pending], fun waits => frames.trans (unread waits)⟩

/-- R71: the frames withdrawn are all that wait unread. -/
theorem unread_withdrawn {o : Order} (waits : framesFit (some o) (unreadOrders s)) :
    unreadOrders (withdrawOrders o.tag s) = [] := by
  have tags := waits.1
  refine List.eq_nil_iff_forall_not_mem.mpr fun r mem => ?_
  obtain ⟨f, inQueue, rfl⟩ := List.mem_map.mp mem
  obtain ⟨inQueue, unread⟩ := List.mem_filter.mp inQueue
  obtain ⟨inQueue, kept⟩ := List.mem_filter.mp inQueue
  obtain ⟨p, same, tag⟩ := tags f.report (List.mem_map.mpr ⟨f, List.mem_filter.mpr ⟨inQueue, unread⟩, rfl⟩)
  obtain rfl : o = p := Option.some.inj same
  simp only [Bool.and_eq_true, Bool.not_eq_true'] at unread
  rw [tag, unread.1] at kept
  simp at kept

/-- R74, R88: the frames withdrawn and the order ended, whatever is done to the rest. -/
theorem orderEnded_of_withdrawn {o : Order} (order : s.active.order = some o)
    (same : calm (endOrder (withdrawOrders o.tag s)) u) : orderEnded s u :=
  orderEnded.after_calm (t := endOrder (withdrawOrders o.tag s))
    ⟨rfl, rfl, ⟨rfl, rfl, rfl⟩, rfl, rfl, fun waits => unread_withdrawn (order ▸ waits.2)⟩ same

theorem orderEnded.rest (h : orderEnded s u)
    (state : orderFits s → s.active.state ≠ .running ∧ s.active.state ≠ .ending) : slotGoes apart s u := by
  constructor
  · exact .inl h.tagKept
  · intro waits paused
    rw [h.pending]
    exact waits (h.state ▸ paused)
  · intro fits
    obtain ⟨notRunning, notEnding⟩ := state fits
    obtain ⟨order, overrun, stopWait⟩ := h.order
    unfold orderFits
    rw [h.state, order, overrun, stopWait]
    cases state : s.active.state with
    | running => exact absurd state notRunning
    | ending => exact absurd state notEnding
    | aborted => simp
    | empty => simp
    | paused => simp
    | done => simp
  · intro _ waits
    rw [framesWait, h.unread waits]
    exact framesFit_nil _
  · exact fun _ kept => absurd h.order.1 kept.2
  · intro live
    rw [planLive, h.state] at live
    exact .inl ⟨live, h.slab⟩

theorem orderEnded.abort (h : orderEnded s u) (record : FaultRecord) : slotGoes apart s (abortPlan record u) := by
  obtain ⟨order, overrun, stopWait⟩ := h.order
  refine .abortPlan record h.tagKept (fun _ => ⟨overrun, by simp [order], by simp [order, stopWait]⟩) ?_
    fun _ => .inl order
  intro _ waits
  rw [framesWait, h.unread waits]
  exact framesFit_nil _

theorem orderEnded.complete (h : orderEnded s u) : slotGoes apart s (completePlan u) := by
  obtain ⟨a, p, same⟩ := completePlan_calm u
  refine slotGoes.congr_right ?_ same
  constructor
  · exact .inl h.tagKept
  · exact fun _ paused => nomatch (show ActiveState.done = .paused from paused)
  · exact fun _ => h.order
  · intro _ waits
    have unread := h.unread waits
    change framesFit u.active.order (unreadOrders u)
    rw [unread]
    exact framesFit_nil _
  · exact fun _ aborted => nomatch (show ActiveState.done = .aborted from aborted.1)
  · rintro (h | h | h)
    · exact nomatch (show ActiveState.done = .running from h)
    · exact nomatch (show ActiveState.done = .paused from h)
    · exact nomatch (show ActiveState.done = .ending from h)

/-- R75 to R77: the plan PAUSED once its order has ended, a cause pending. -/
theorem orderEnded.paused (h : orderEnded s u) (running : s.active.state = .running)
    (state : t.active.state = .paused) (same : t.active.order = u.active.order ∧ t.active.overrun = u.active.overrun ∧
      t.active.stopWait = u.active.stopWait ∧ t.active.tag = u.active.tag ∧ t.active.plan = u.active.plan)
    (pending : t.active.pending ≠ ⟨false, false, false, false, false⟩) (unread : unreadOrders t = unreadOrders u) :
    slotGoes apart s t := by
  obtain ⟨order, overrun, stopWait, tag, plan⟩ := same
  obtain ⟨none, noOverrun, noWait⟩ := h.order
  constructor
  · exact .inl ⟨tag.trans h.tag, fun o ho => by simp [order, none] at ho⟩
  · exact fun _ _ => pending
  · intro _
    simp [orderFits, state, order, overrun, stopWait, none, noOverrun, noWait]
  · intro _ waits
    rw [framesWait, unread, h.unread waits]
    exact framesFit_nil _
  · exact fun _ kept => absurd (order.trans none) kept.2
  · exact fun _ => .inl ⟨.inl running, by rw [plan, h.slab]⟩

theorem orderEnded.goOn (h : orderEnded s u) (running : s.active.state = .running) : slotGoes apart s (goOn u) := by
  unfold Machine.goOn
  split
  · exact slotGoes.issue (h.state.trans running) h.tagKept (fun _ => ⟨h.order, h.unread⟩)
      (.inl ⟨.inl running, h.slab⟩)
  · next waits =>
    obtain ⟨active, unread⟩ := setActiveState_calm (st := .paused) (s := u) (by simp)
    refine h.paused running (setActiveState_state _ _) (by rw [active]; exact ⟨rfl, rfl, rfl, rfl, rfl⟩) ?_ unread
    rw [active]
    intro none
    simp only at none
    exact waits (by rw [none]; rfl)

theorem orderEnded.pauseOn (h : orderEnded s u) (running : s.active.state = .running) {cause : Cause}
    (holds : pauses cause) (segment : Nat) (o : Order) (length : Nat) :
    slotGoes apart s (pauseOn cause segment o length u) := by
  obtain ⟨f, active, unread⟩ := pausedWith_calm cause segment o.kind (reachedPoint u o length) u
  exact h.paused running (setActiveState_state _ _) (by rw [Machine.pauseOn, active]; exact ⟨rfl, rfl, rfl, rfl, rfl⟩)
    (by rw [Machine.pauseOn, active]; exact holds _) unread

/-! ### The segment reports -/

theorem orderEnded.advance (h : orderEnded s u) : orderEnded s (advanceSegment u) :=
  ⟨h.state, h.tag, h.order, h.slab, h.pending, h.unread⟩

theorem orderEnded.progress (h : orderEnded s u) (o : Order) (length : Nat) :
    orderEnded s (recordProgress o length u) := by
  unfold recordProgress
  split
  · exact ⟨h.state, h.tag, h.order, h.slab, h.pending, h.unread⟩
  · exact h.advance

theorem orderEnded.counted (h : orderEnded s u) (segment : Nat) : orderEnded s (countFault segment u) :=
  ⟨h.state, h.tag, h.order, h.slab, h.pending, h.unread⟩

theorem orderEnded.afterDone (h : orderEnded s u) (o : Order) (length : Nat) :
    slotGoes apart s (afterDone o length u) := by
  unfold Machine.afterDone
  split
  · next running =>
    simp only
    split
    · exact h.advance.complete
    · exact h.advance.goOn (h.state ▸ running)
  · exact h.advance.abort _
  · next state => exact h.rest fun _ => by rw [← h.state, state]; simp
  · next state => exact h.rest fun _ => by rw [← h.state, state]; simp
  · next state => exact h.rest fun _ => by rw [← h.state, state]; simp
  · next state => exact h.rest fun _ => by rw [← h.state, state]; simp

theorem orderEnded.afterPaused (h : orderEnded s u) (o : Order) (length : Nat) :
    slotGoes apart s (afterPaused o length u) := by
  unfold Machine.afterPaused
  split
  · next running =>
    have inWork := h.state ▸ running
    simp only
    split
    · exact (h.progress o length).complete
    · split
      · exact (h.progress o length).goOn inWork
      · exact (h.progress o length).pauseOn inWork pauses_machinePause _ o length
  · split
    · exact h.abort _
    · exact h.advance.abort _
  · next state => exact h.rest fun _ => by rw [← h.state, state]; simp
  · next state => exact h.rest fun _ => by rw [← h.state, state]; simp
  · next state => exact h.rest fun _ => by rw [← h.state, state]; simp
  · next state => exact h.rest fun _ => by rw [← h.state, state]; simp

theorem orderEnded.afterFault (h : orderEnded s u) {cause : Cause} {code : Nat} (known : causeOfCode code = some cause)
    (o : Order) (length : Nat) : slotGoes apart s (afterFault cause o length u) := by
  unfold Machine.afterFault
  split
  · next running =>
    have inWork := h.state ▸ running
    split
    · exact h.abort _
    · next stall =>
      unfold afterStall
      simp only
      split
      · exact (h.counted o.segment).abort _
      · split
        · exact (h.counted o.segment).abort _
        · split
          · exact ((h.counted o.segment).progress o length).complete
          · exact ((h.counted o.segment).progress o length).pauseOn inWork
              (pauses_of_report known (by simpa using stall)) _ o length
  · exact h.abort _
  · next state => exact h.rest fun _ => by rw [← h.state, state]; simp
  · next state => exact h.rest fun _ => by rw [← h.state, state]; simp
  · next state => exact h.rest fun _ => by rw [← h.state, state]; simp
  · next state => exact h.rest fun _ => by rw [← h.state, state]; simp

/-- R80: the cost of a portion and its segment's flag, noted in the slot. -/
def notePortion (cost segment : Nat) (s : State) : State :=
  { s with active := { s.active with
    actual := add32 s.active.actual cost, charged := s.active.charged.set segment true } }

/-- R80: the portion posted and its solids added. -/
def portionPosted (o : Order) (length time : Nat) (s : State) : State :=
  addSolids (portionFor s o length time).solids
    (postJob (s.active.plan.jobOf (s.active.plan.segmentAt o.segment))
      (JobRecord.addPortion (portionFor s o length time) (!s.active.charged.getD o.segment false)) (takePulses s))

theorem chargePortion_eq (o : Order) (length time : Nat) (s : State) : chargePortion o length time s =
    if 0 < s.water.segFresh then
      trap (.freshUsed (portionFor s o length time).fresh) (portionPosted o length time s).active.plan.number
        (some o.segment) (notePortion (portionFor s o length time).cost o.segment (portionPosted o length time s))
    else notePortion (portionFor s o length time).cost o.segment (portionPosted o length time s) := rfl

theorem portionPosted_moves {k : Scope} (o : Order) (length time : Nat) {s : State} (v : k.line ∨ mutedAndSilent s) :
    Moves k s (portionPosted o length time s) := by
  have posted := (takePulses_moves (k := k) s).trans
    (postJob_moves (s.active.plan.jobOf (s.active.plan.segmentAt o.segment)) _
      (addPortion_addsWithin (portionFor s o length time) (!s.active.charged.getD o.segment false)))
  exact posted.trans (addSolids_moves _ (posted.voice v))

/-- R80: a portion charged leaves of the slot all but its total and flags. -/
theorem chargePortion_calm (o : Order) (length time : Nat) (s : State) :
    calm (notePortion (portionFor s o length time).cost o.segment s) (chargePortion o length time s) := by
  have noted : calm (notePortion (portionFor s o length time).cost o.segment s)
      (notePortion (portionFor s o length time).cost o.segment (portionPosted o length time s)) := by
    obtain ⟨active, unread⟩ := (portionPosted_moves (k := Scope.quiet) o length time (s := s) (.inl trivial)).calm
    exact ⟨by simp only [notePortion, active], unread⟩
  rw [chargePortion_eq]
  split
  · exact noted.trans (trap_moves (k := Scope.quiet) ..).calm
  · exact noted

/-- R74: the LENGTH MISMATCH of a report, where it is due. -/
def judgeLength (o : Order) (short : Bool) (length : Nat) (s : State) : State :=
  if o.ordered < length ∨ (short = true ∧ length + 2 < o.ordered) then
    trap (.lengthMismatch o.tag length o.ordered) s.active.plan.number none s
  else s

theorem judgeLength_moves {k : Scope} (o : Order) (short : Bool) (length : Nat) (s : State) :
    Moves k s (judgeLength o short length s) := Moves.thenIf .refl (trap_moves ..)

theorem chargeReport_eq (o : Order) (short : Bool) (length time : Nat) (s : State) :
    chargeReport o short length time s = chargePortion o (min length o.ordered) time
      (fillReached o (min length o.ordered) (judgeLength o short length s)) := rfl

/-- R82: the reached point filled changes the record alone. -/
theorem fillReached_eq (o : Order) (length : Nat) (s : State) :
    ∃ f, fillReached o length s = { s with active := { s.active with fault := f } } := by
  unfold fillReached
  split
  · exact ⟨_, rfl⟩
  · exact ⟨s.active.fault, rfl⟩

/-- R74, R80: a report charged leaves of the slot all but its record, total and flags. -/
theorem chargeReport_calm (o : Order) (short : Bool) (length time : Nat) (s : State) : ∃ f a c,
    calm { s with active := { s.active with fault := f, actual := a, charged := c } }
      (chargeReport o short length time s) := by
  obtain ⟨active, unread⟩ := (judgeLength_moves (k := Scope.quiet) o short length s).calm
  obtain ⟨f, filled⟩ := fillReached_eq o (min length o.ordered) (judgeLength o short length s)
  obtain ⟨active', unread'⟩ := chargePortion_calm o (min length o.ordered) time
    (fillReached o (min length o.ordered) (judgeLength o short length s))
  rw [chargeReport_eq]
  refine ⟨f, (chargePortion o (min length o.ordered) time
    (fillReached o (min length o.ordered) (judgeLength o short length s))).active.actual,
    s.active.charged.set o.segment true, ?_, unread'.trans ?_⟩
  · rw [active', filled, notePortion]
    simp only [active]
  · rw [filled]
    exact unread

theorem takeReport_goes (command tag : Nat) (short : Bool) (length time : Nat)
    {judge : Order → Nat → State → State} (s : State)
    (judged : ∀ u o length, orderEnded s u → slotGoes apart s (judge o length u)) :
    slotGoes apart s (takeReport command tag short length time judge s) := by
  unfold takeReport
  split
  · exact .of_calm (refuse_moves (k := Scope.quiet) ..).calm
  · next o found =>
    obtain ⟨order, mine⟩ := Option.filter_eq_some_iff.mp found
    obtain rfl : o.tag = tag := by simpa using mine
    refine judged _ _ _ ?_
    have accepted : calm (endOrder (withdrawOrders o.tag s)) (endOrder (accept command (withdrawOrders o.tag s))) := by
      obtain ⟨active, unread⟩ := (accept_moves (k := Scope.quiet) command (withdrawOrders o.tag s)).calm
      exact ⟨by simp only [endOrder, active], unread⟩
    obtain ⟨f, a, c, active, unread⟩ := chargeReport_calm o short length time
      (endOrder (accept command (withdrawOrders o.tag s)))
    have ended := orderEnded_of_withdrawn order accepted
    constructor
    · rw [active]
      exact ended.state
    · rw [active]
      exact ended.tag
    · rw [orderless, active]
      exact ended.order
    · rw [active]
      exact ended.slab
    · rw [active]
      exact ended.pending
    · exact fun waits => unread.trans (ended.unread waits)

end Ended

end Sys2Proof.Machine

namespace Sys2Proof.Machine

open Sys2Proof Sys2Proof.Safety Relation

section Slot
variable {apart : Prop} {s t u : State}

/-! ### The order's timers -/

/-- R70, R86: the slot but for the timers of its order. -/
theorem slotGoes.of_timers (active : ∃ v w, t.active = { s.active with overrun := v, stopWait := w })
    (unread : unreadOrders t = unreadOrders s) (fits : orderFits s → orderFits t) : slotGoes apart s t := by
  obtain ⟨v, w, active⟩ := active
  constructor
  · refine .inl ⟨by rw [active], fun o ho => ⟨o, ?_, rfl, rfl, rfl⟩⟩
    rwa [active] at ho
  · rw [pausedWaits, pausedWaits, active]
    exact id
  · exact fits
  · intro _ waits
    rw [framesWait, unread, active]
    exact waits.2
  · rw [abortedKeepsOrder, active]
    exact fun _ kept => .inl kept
  · rw [planLive, active]
    exact fun live => .inl ⟨live, rfl⟩

theorem endUnreported_ended {o : Order} (order : s.active.order = some o) : orderEnded s (endUnreported o s) := by
  obtain ⟨active, unread⟩ := (trap_moves (k := Scope.quiet) (.unreportedPortion o.tag) s.active.plan.number
    (some o.segment) s).calm
  have ended := orderEnded_of_withdrawn (s := trap (.unreportedPortion o.tag) s.active.plan.number (some o.segment) s)
    (o := o) (u := dropOrder o (trap (.unreportedPortion o.tag) s.active.plan.number (some o.segment) s))
    (by rw [active]; exact order) ⟨rfl, rfl⟩
  refine ⟨by rw [endUnreported, ended.state, active], by rw [endUnreported, ended.tag, active], ended.order,
    by rw [endUnreported, ended.slab, active], by rw [endUnreported, ended.pending, active],
    fun waits => ended.unread ⟨?_, ?_⟩⟩
  · rw [active]
    intro aborted kept
    simpa [mutedAndSilent, trap] using waits.1 aborted kept
  · rw [active, unread]
    exact waits.2

theorem stopWaitExpiry_goes (h : execStopWaitExpiry s = .next t) : slotGoes apart s t := by
  obtain rfl := Host.Outcome.next.inj h
  split
  · next running =>
    split
    · next none =>
      refine .of_timers ⟨s.active.overrun, Option.none, rfl⟩ rfl fun fits => ?_
      unfold orderFits at fits
      split at fits <;> simp_all
    · next o order =>
      have ended := endUnreported_ended order
      simp only
      split
      · exact (ended.abort _).congr_right (launchWrite_moves (k := Scope.quiet) _).calm
      · next other =>
        refine ended.rest fun fits => ⟨fun inWork => ?_, other⟩
        simp only [orderFits, inWork] at fits
        simp [fits.2.2] at running
  · exact .of_calm (calm.refl s)

theorem overrunExpiry_goes (h : execOverrunExpiry s = .next t) : slotGoes apart s t := by
  obtain rfl := Host.Outcome.next.inj h
  split
  · next running =>
    split
    · next o inWork order => exact .stopRunning .overrun inWork order ⟨none, rfl⟩ rfl
    · next other =>
      refine .of_timers ⟨none, s.active.stopWait, rfl⟩ rfl fun fits => ?_
      have running : s.active.state = .running := by
        unfold orderFits at fits
        split at fits <;> simp_all
      simp only [orderFits, running] at fits
      obtain ⟨o, order, -⟩ := (Option.any_eq_true ..).mp fits.1
      exact absurd order (other o running)
  · exact .of_calm (calm.refl s)

/-! ### The slot emptied -/

/-- R14, R94: the slot emptied, nothing waiting unread. -/
theorem slotGoes.emptied (active : t.active = { Active.reset with tag := s.active.tag })
    (unread : orderFits s → orderFramesWait s → unreadOrders t = []) : slotGoes apart s t := by
  constructor
  · exact .inl ⟨by rw [active], fun o ho => by rw [active] at ho; exact nomatch ho⟩
  · intro _ paused
    rw [active] at paused
    exact nomatch paused
  · intro _
    rw [orderFits, active]
    exact ⟨rfl, rfl, rfl⟩
  · intro fits waits
    rw [framesWait, unread fits waits]
    exact framesFit_nil _
  · rintro - ⟨aborted, -⟩
    rw [active] at aborted
    exact nomatch aborted
  · intro live
    rw [planLive, active] at live
    obtain h | h | h := live
    · exact nomatch h
    · exact nomatch h
    · exact nomatch h

theorem clearAborted_goes (slab : Nat) (s : State) : slotGoes apart s (clearAborted slab s) := by
  unfold clearAborted
  split
  · have released := (releaseJobs_moves (k := Scope.quiet) (distinctJobs s.active.plan.pieces) s).trans
      (releaseClaim_moves (resource := slab) (.inl trivial) (letsGo_of_none rfl))
    obtain ⟨active, unread⟩ := released.calm
    simp only
    split
    · next o order =>
      rw [active] at order
      refine .emptied (by simp [emptyActive, dropOrder, countsToIdle, endOrder, withdrawOrders]) ?_
      intro _ waits
      refine (unread_withdrawn (s := releaseClaim slab (releaseJobs (distinctJobs s.active.plan.pieces) s)) ?_)
      rw [unread]
      exact order ▸ waits.2
    · next none =>
      rw [active] at none
      exact .emptied (by rw [emptyActive, active]) fun _ waits => unread.trans (unread_of_orderless waits none)
  · exact .of_calm (calm.refl s)

/-- What a command does after operations that leave the slot alone. -/
theorem slotGoes.after_moves (h : ∀ k : Scope, k.line ∨ mutedAndSilent s → Moves k s u) (goes : slotGoes apart u t) :
    slotGoes apart s t :=
  goes.after_calm (h Scope.quiet (.inl trivial)).calm fun silent =>
    ((h ⟨False, False, none⟩ (.inr silent)).voice (.inr silent)).resolve_left id

/-- R14: a slab retired elsewhere clears the ABORTED slot on it. -/
theorem slabGone_goes (slab : Nat) (s : State) : slotGoes apart s (slabGone slab s) :=
  (clearAborted_goes slab _).after_moves fun _ _ => stalePlan_moves slab .gone s

/-! ### A plan started -/

theorem startPlan_goes {p : Plan} (free : s.active.state.isFree = true) : slotGoes True s (startPlan p s) := by
  have none (fits : orderFits s) : s.active.order = none := by
    refine (orderless_of_fits fits ?_).1
    cases state : s.active.state <;> simp_all [ActiveState.isFree]
  have cut := (setSlabState_moves (k := Scope.quiet) (id := p.slab) (st := .cutting) (s := loadActive p s)
    (.inr rfl)).calm
  obtain ⟨active, unread⟩ := cut.trans (tellWater_calm fun _ => by rw [cut.1]; rfl)
  refine slotGoes.issue (by rw [active]; rfl) ⟨by rw [active]; rfl, fun o ho => ?_⟩ (fun fits => ?_) (.inr trivial)
  · rw [active] at ho
    exact nomatch ho
  · refine ⟨?_, fun waits => unread.trans (unread_of_orderless (s := s) waits (none fits))⟩
    rw [orderless, active]
    exact ⟨rfl, rfl, rfl⟩

/-! ### Muting -/

theorem stopOrder_active (o : Order) (s : State) : (stopOrder o s).active = { s.active with
    order := some { o with stopped := true }, overrun := none, stopWait := some 10000 } := by
  simp [stopOrder]

theorem mutePlan_goes (s : State) : slotGoes True s (mutePlan s) := by
  have plain (record : FaultRecord) (fits : orderFits s → s.active.overrun = none ∧
      s.active.order.all (·.stopped) = true ∧ s.active.stopWait.isSome = s.active.order.isSome) :
      slotGoes True s (abortPlan record s) :=
    .abortPlan record (tagKept.refl s) fits (fun _ waits => waits.2) fun _ => .inr trivial
  unfold mutePlan
  simp only
  split
  · next running =>
    split
    · next o order =>
      have stopped := stopOrder_active o s
      have handed : frameHanded (.stopOrder o.tag o.segment) (unreadOrders s) (unreadOrders (stopOrder o s)) :=
        frameHanded_orderFrame rfl s
      refine .abortPlan _ ⟨by rw [stopped], fun q hq => ⟨o, order, ?_⟩⟩ (fun _ => ?_) (fun _ waits => ?_)
        fun _ => .inr trivial
      · rw [stopped] at hq
        obtain rfl := Option.some.inj hq
        exact ⟨rfl, rfl, rfl⟩
      · rw [stopped]
        exact ⟨rfl, rfl, rfl⟩
      · rw [framesWait, stopped]
        have old := waits.2
        rw [order] at old
        exact framesFit.update (p := { o with stopped := true }) old rfl rfl handed
    · next none =>
      refine plain _ fun fits => ?_
      simp [orderFits, running, none] at fits
  · next paused =>
    refine plain _ fun fits => ?_
    obtain ⟨order, overrun, stopWait⟩ := orderless_of_fits fits (.inr (.inl paused))
    simp [order, overrun, stopWait]
  · next ending =>
    refine plain _ fun fits => ?_
    simp only [orderFits, ending] at fits
    obtain ⟨o, order, stopped⟩ := (Option.any_eq_true ..).mp fits.1
    simp [order, stopped, fits.2]
  · exact .of_calm (calm.refl s)
  · exact .of_calm (calm.refl s)
  · exact .of_calm (calm.refl s)

/-- R90: muting leaves no plan in work. -/
theorem mutePlan_not_live (s : State) : ¬ planLive (mutePlan s) := by
  unfold mutePlan planLive
  simp only
  split
  · split
    · simp [abortPlan_state]
    · simp [abortPlan_state]
  · simp [abortPlan_state]
  · simp [abortPlan_state]
  · next h => simp [h]
  · next h => simp [h]
  · next h => simp [h]

end Slot

end Sys2Proof.Machine

/-! PROOF. The host commands as runs of changes. -/

namespace Sys2Proof.Machine

open Sys2Proof Sys2Proof.Safety Relation

section Host
variable {k : Scope} {s : State}

theorem checked_moves {command : Nat} {checks : List (Bool × Reason)} {run : State → State}
    (taken : (∀ c ∈ checks, c.1 = false) → Moves k s (run s)) : Moves k s (checked command checks run s) := by
  unfold checked
  split
  · exact refuse_moves ..
  · next none => exact taken ((firstRefusal_eq_none_iff checks).mp none)

/-- A command refused where a condition holds. -/
theorem refusedIf_moves {command : Nat} {why : Reason} {c : Prop} [Decidable c] {t : State}
    (taken : ¬ c → Moves k s t) : Moves k s (if c then refuse command why s else t) := by
  split
  · exact refuse_moves ..
  · next h => exact taken h

/-! ### The register and the claim table -/

theorem runEnterSlab_moves (c : SlabContents) (v : k.line ∨ mutedAndSilent s) : Moves k s (runEnterSlab c s) := by
  refine checked_moves fun _ => ?_
  split
  · exact refuse_moves ..
  · next u room =>
    have made : Moves k s _ := .single (.enteredSlab c room)
    exact made.trans (announceSlab_moves (idToIssue u) (made.voice v))

theorem runReadSlab_moves (slab : Nat) : Moves k s (runReadSlab slab s) := by
  refine refusedIf_moves fun _ => ?_
  split
  · exact refuse_moves ..
  · exact (accept_moves 0x02 s).trans (reports_moves _ _ (by simp [Report.isOrder]))

theorem runListSlabs_moves (start : Nat) : Moves k s (runListSlabs start s) :=
  refusedIf_moves fun _ => (accept_moves 0x03 s).trans (report_moves ..)

theorem runTake_moves (slab job : Nat) (v : k.line ∨ mutedAndSilent s) : Moves k s (runTake slab job s) := by
  refine checked_moves fun passed => ?_
  simp only [takeChecks, List.mem_cons, List.not_mem_nil, or_false, forall_eq_or_imp, forall_eq] at passed
  obtain ⟨-, -, -, -, notMuted, -, free, room⟩ := passed
  have line : k.line := v.resolve_right fun silent => by simp [silent.1] at notMuted
  refine (accept_moves 0x04 s).trans (makeClaim_moves _ line ?_ ?_)
  · simpa [claimOn, accept, acceptWith] using free
  · simpa [accept, acceptWith] using room

theorem runGive_moves (slab : Nat) (v : k.line ∨ mutedAndSilent s)
    (kept : ∀ id, k.kept = some id → activeOn s id = true) : Moves k s (runGive slab s) := by
  refine checked_moves fun passed => ?_
  simp only [List.mem_cons, List.not_mem_nil, or_false, forall_eq_or_imp, forall_eq] at passed
  have accepted := accept_moves (k := k) 0x05 s
  exact accepted.trans (releaseClaim_moves (accepted.voice v) (letsGo_of_other fun mine => by
    simp [kept slab mine] at passed))

/-! ### The staged slot -/

theorem runPlanHead_moves (plan slab : Nat) : Moves k s (runPlanHead plan slab s) := by
  refine refusedIf_moves fun fit => ?_
  have discarded := (accept_moves (k := k) 0x06 s).trans (discardStaged_moves _)
  refine discarded.trans (staged_moves fun p same => .inl ?_)
  obtain rfl := Option.some.inj same
  simpa using (not_or.mp fit).2

theorem loadFrame_moves (command : Nat) (fits : Plan → Bool) {change : Plan → Plan}
    (same : ∀ p, (change p).slab = p.slab) : Moves k s (loadFrame command fits change s) := by
  unfold loadFrame
  split
  · exact refuse_moves ..
  · next p loading =>
    split
    · refine (accept_moves command s).trans (staged_moves fun q hq => .inr ⟨p, ?_, ?_⟩)
      · cases staged : s.staged <;> simp_all [Staged.loading?, Staged.plan?, accept, acceptWith]
      · obtain rfl := Option.some.inj hq
        exact (same p).symm
    · exact refuse_moves ..

theorem rejectPlan_moves {p : Plan} (why : Rejection) (held : s.staged.plan? = some p) :
    Moves k s (rejectPlan p why s) :=
  .trans (staged_moves fun q hq => .inr ⟨p, held, by obtain rfl := Option.some.inj hq; rfl⟩) (report_moves ..)

theorem validFrames_plain (p : Plan) (e : Estimate) : ∀ r ∈ validFrames p e, r.isOrder = false := by
  simp [validFrames, Report.isOrder]

theorem acceptPlan_moves {p : Plan} (held : s.staged.plan? = some p) (opened : checkJobs s p = none) :
    Moves k s (acceptPlan p s) := by
  refine .trans (staged_moves fun q hq => .inr ⟨p, held, ?_⟩) (.trans (holdJobs_moves _ _ fun n mem => ?_)
    (reports_moves _ _ (validFrames_plain _ _)))
  · obtain rfl := Option.some.inj hq
    rfl
  · obtain ⟨e, inPieces, rfl⟩ := List.mem_map.mp ((mem_distinctJobs_iff _ _).mp mem)
    obtain ⟨i, h, rfl⟩ := List.mem_iff_getElem.mp inPieces
    have passes := (firstFailure_eq_none _ 0 p.pieces).mp opened i h
    by_contra closed
    have shut : jobOpen s p.pieces[i].job = false := by simpa [jobOpen, findJob] using closed
    simp [shut] at passes

theorem validatePlan_moves {p : Plan} (held : s.staged.plan? = some p) : Moves k s (validatePlan p s) := by
  unfold validatePlan
  split
  · exact rejectPlan_moves _ held
  · split
    · exact rejectPlan_moves _ held
    · next u room =>
      have taken : Moves k s u := .single (.reserve room)
      have stillHeld : u.staged.plan? = some p := by rw [reserve_frame room]; exact held
      split
      · exact (taken.trans (dropReservations_moves ..)).trans (rejectPlan_moves _ stillHeld)
      · next opened => exact taken.trans (acceptPlan_moves stillHeld opened)

theorem runPlanEnd_moves : Moves k s (runPlanEnd s) := by
  unfold runPlanEnd
  have accepted := accept_moves (k := k) 0x0A s
  split
  · exact refuse_moves ..
  · next p loading => exact accepted.trans (validatePlan_moves (by simp [accept, acceptWith, loading, Staged.plan?]))
  · next p valid =>
    refine accepted.trans (reports_moves _ _ ?_)
    cases p.estimate with
    | none => simp
    | some e => exact validFrames_plain p e
  · exact accepted.trans (report_moves ..)
  · exact accepted.trans (report_moves ..)

theorem runDropPlan_moves : Moves k s (runDropPlan s) :=
  refusedIf_moves fun _ => (accept_moves 0x0B s).trans (discardStaged_moves _)

/-! ### The active slot -/

theorem startPlan_moves (p : Plan) (v : k.line ∨ mutedAndSilent s) (slot : k.slot) : Moves k s (startPlan p s) := by
  have loaded : Moves k s (loadActive p s) := (stagedEmpty_moves s).trans (active_moves (loadActive p s).active _ slot)
  have cut := loaded.trans (setSlabState_moves (id := p.slab) (.inr rfl))
  have told := cut.trans (tellWater_moves (cut.voice v) (.inl slot))
  exact told.trans (issuePlan_moves (told.voice v) slot)

theorem runStartPlan_moves (v : k.line ∨ mutedAndSilent s) (slot : k.slot) : Moves k s (runStartPlan s) := by
  refine refusedIf_moves fun _ => refusedIf_moves fun _ => refusedIf_moves fun _ => ?_
  split
  · refine refusedIf_moves fun _ => refusedIf_moves fun _ => ?_
    have accepted := accept_moves (k := k) 0x0C s
    exact accepted.trans (startPlan_moves _ (accepted.voice v) slot)
  · exact refuse_moves ..
  · exact refuse_moves ..
  · exact refuse_moves ..
  · exact refuse_moves ..

/-- A slab of a plan that goes ABORTED, where nothing is to be kept of a plan in work. -/
theorem letsGo_of_ends {record : FaultRecord} {u : State} {id : Nat}
    (ends : k.kept = none ∨ planLive (abortPlan record u)) : letsGo k s id :=
  letsGo_of_none (ends.resolve_right fun live => by simp [planLive, abortPlan_state] at live)

theorem abortPlan_ends_moves (record : FaultRecord) (v : k.line ∨ mutedAndSilent s) (slot : k.slot)
    (ends : k.kept = none ∨ planLive (abortPlan record s)) : Moves k s (abortPlan record s) :=
  abortPlan_moves record v slot (letsGo_of_ends ends)

theorem runAbortPlan_moves (v : k.line ∨ mutedAndSilent s) (slot : k.slot)
    (ends : k.kept = none ∨ planLive (runAbortPlan s)) : Moves k s (runAbortPlan s) := by
  have accepted := accept_moves (k := k) 0x0D s
  unfold runAbortPlan at ends ⊢
  cases state : s.active.state with
  | empty => exact refuse_moves ..
  | done => exact refuse_moves ..
  | ending => exact refuse_moves ..
  | aborted => exact refuse_moves ..
  | paused =>
    rw [state] at ends
    exact accepted.trans (abortPlan_ends_moves _ (accepted.voice v) slot ends)
  | running =>
    simp only
    split
    · exact accepted.trans (stopRunning_moves _ _ (accepted.voice v) slot)
    · exact refuse_moves ..

theorem runContinue_moves (v : k.line ∨ mutedAndSilent s) (slot : k.slot) : Moves k s (runContinue s) := by
  unfold runContinue
  have accepted := accept_moves (k := k) 0x0E s
  split
  · exact accepted.trans (setPending_moves _ (accepted.voice v) slot)
  · exact refuse_moves ..

end Host

end Sys2Proof.Machine

namespace Sys2Proof.Machine

open Sys2Proof Sys2Proof.Safety Relation

section Host
variable {k : Scope} {s : State}

/-- A run that depends on a condition, as far as it may end a plan. -/
theorem Moves.ends_ite {c : Prop} [Decidable c] {t u : State} (ends : k.kept = none ∨ planLive (if c then t else u))
    (yes : k.kept = none ∨ planLive t → Moves k s t) (no : k.kept = none ∨ planLive u → Moves k s u) :
    Moves k s (if c then t else u) := by
  by_cases h : c
  · rw [if_pos h] at ends ⊢
    exact yes ends
  · rw [if_neg h] at ends ⊢
    exact no ends

/-! ### The segment reports -/

theorem fillReached_moves (o : Order) (length : Nat) (s : State) (slot : k.slot) :
    Moves k s (fillReached o length s) := by
  obtain ⟨f, filled⟩ := fillReached_eq o length s
  rw [filled]
  exact active_moves _ s slot

theorem chargeReport_moves (o : Order) (short : Bool) (length time : Nat) (v : k.line ∨ mutedAndSilent s)
    (slot : k.slot) : Moves k s (chargeReport o short length time s) := by
  have filled := (judgeLength_moves (k := k) o short length s).trans (fillReached_moves o (min length o.ordered) _ slot)
  exact filled.trans (chargePortion_moves o _ time (filled.voice v) slot)

theorem takeReport_moves (command tag : Nat) (short : Bool) (length time : Nat) {judge : Order → Nat → State → State}
    (v : k.line ∨ mutedAndSilent s) (slot : k.slot)
    (ends : k.kept = none ∨ planLive (takeReport command tag short length time judge s))
    (judged : ∀ o length u, k.line ∨ mutedAndSilent u → k.kept = none ∨ planLive (judge o length u) →
      Moves k u (judge o length u)) : Moves k s (takeReport command tag short length time judge s) := by
  unfold takeReport at ends ⊢
  split at ends
  · next none => exact refuse_moves ..
  · next o found =>
    have withdrawn : Moves k s (withdrawOrders tag s) := .single (.withdraw tag s slot)
    have ended := (withdrawn.trans (accept_moves command _)).trans (endOrder_moves _ slot)
    have charged := ended.trans (chargeReport_moves o short length time (ended.voice v) slot)
    exact charged.trans (judged o _ _ (charged.voice v) ends)

/-- A plan that completes, where nothing is to be kept of a plan in work. -/
theorem completePlan_ends_moves (v : k.line ∨ mutedAndSilent s) (slot : k.slot)
    (ends : k.kept = none ∨ planLive (completePlan s)) : Moves k s (completePlan s) :=
  completePlan_moves v slot (ends.resolve_right fun live => by simp [planLive, completePlan_state] at live)

theorem afterDone_moves (o : Order) (length : Nat) (v : k.line ∨ mutedAndSilent s) (slot : k.slot)
    (ends : k.kept = none ∨ planLive (afterDone o length s)) : Moves k s (afterDone o length s) := by
  have advanced := advanceSegment_moves (k := k) s slot
  unfold afterDone at ends ⊢
  cases state : s.active.state with
  | running =>
    rw [state] at ends
    exact Moves.ends_ite ends (fun ends => advanced.trans (completePlan_ends_moves (advanced.voice v) slot ends))
      fun _ => advanced.trans (goOn_moves (advanced.voice v) slot)
  | ending =>
    rw [state] at ends
    exact advanced.trans (abortPlan_ends_moves _ (advanced.voice v) slot ends)
  | empty => exact .refl
  | paused => exact .refl
  | done => exact .refl
  | aborted => exact .refl

theorem pauseOn_moves (cause : Cause) (segment : Nat) (o : Order) (length : Nat) (v : k.line ∨ mutedAndSilent s)
    (slot : k.slot) : Moves k s (pauseOn cause segment o length s) := by
  have added := addCause_moves (k := k) cause segment o.kind (reachedPoint s o length) s slot
  exact added.trans (setActiveState_moves _ (added.voice v) slot)

theorem afterPaused_moves (o : Order) (length : Nat) (v : k.line ∨ mutedAndSilent s) (slot : k.slot)
    (ends : k.kept = none ∨ planLive (afterPaused o length s)) : Moves k s (afterPaused o length s) := by
  have progressed := recordProgress_moves (k := k) o length s slot
  unfold afterPaused at ends ⊢
  cases state : s.active.state with
  | running =>
    rw [state] at ends
    refine Moves.ends_ite ends (fun ends => progressed.trans (completePlan_ends_moves (progressed.voice v) slot ends))
      fun ends => Moves.ends_ite ends (fun _ => progressed.trans (goOn_moves (progressed.voice v) slot))
        fun _ => progressed.trans (pauseOn_moves _ _ o length (progressed.voice v) slot)
  | ending =>
    rw [state] at ends
    have kept : k.kept = none := ends.resolve_right fun live => by simp [planLive, abortPlan_state] at live
    have advanced : Moves k s (if length < o.ordered then s else advanceSegment s) := by
      split
      · exact .refl
      · exact advanceSegment_moves s slot
    exact advanced.trans (abortPlan_moves _ (advanced.voice v) slot (letsGo_of_none kept))
  | empty => exact .refl
  | paused => exact .refl
  | done => exact .refl
  | aborted => exact .refl

theorem countFault_moves (segment : Nat) (s : State) (slot : k.slot) : Moves k s (countFault segment s) :=
  active_moves _ s slot

theorem abortOnReport_moves (cause : Cause) (prior : Option Cause) (o : Order) (length : Nat)
    (v : k.line ∨ mutedAndSilent s) (slot : k.slot)
    (ends : k.kept = none ∨ planLive (abortOnReport cause prior o length s)) :
    Moves k s (abortOnReport cause prior o length s) := abortPlan_ends_moves _ v slot ends

theorem afterStall_moves (cause : Cause) (o : Order) (length : Nat) (v : k.line ∨ mutedAndSilent s) (slot : k.slot)
    (ends : k.kept = none ∨ planLive (afterStall cause o length s)) : Moves k s (afterStall cause o length s) := by
  have counted := countFault_moves (k := k) o.segment s slot
  have progressed := counted.trans (recordProgress_moves o length _ slot)
  have aborted {c prior} (ends : k.kept = none ∨ planLive (abortOnReport c prior o length (countFault o.segment s))) :=
    counted.trans (abortOnReport_moves c prior o length (counted.voice v) slot ends)
  exact Moves.ends_ite ends aborted fun ends => Moves.ends_ite ends aborted fun ends => Moves.ends_ite ends
    (fun ends => progressed.trans (completePlan_ends_moves (progressed.voice v) slot ends))
    fun _ => progressed.trans (pauseOn_moves cause _ o length (progressed.voice v) slot)

theorem afterFault_moves (cause : Cause) (o : Order) (length : Nat) (v : k.line ∨ mutedAndSilent s) (slot : k.slot)
    (ends : k.kept = none ∨ planLive (afterFault cause o length s)) : Moves k s (afterFault cause o length s) := by
  unfold afterFault at ends ⊢
  cases state : s.active.state with
  | running =>
    rw [state] at ends
    exact Moves.ends_ite ends (abortOnReport_moves cause none o length v slot) (afterStall_moves cause o length v slot)
  | ending =>
    rw [state] at ends
    exact abortPlan_ends_moves _ v slot ends
  | empty => exact .refl
  | paused => exact .refl
  | done => exact .refl
  | aborted => exact .refl

theorem runSegmentDone_moves (tag length time : Nat) (v : k.line ∨ mutedAndSilent s) (slot : k.slot)
    (ends : k.kept = none ∨ planLive (runSegmentDone tag length time s)) : Moves k s (runSegmentDone tag length time s) :=
  takeReport_moves 0x0F tag true length time v slot ends fun o length _ v ends => afterDone_moves o length v slot ends

theorem runSegmentPaused_moves (tag length time : Nat) (v : k.line ∨ mutedAndSilent s) (slot : k.slot)
    (ends : k.kept = none ∨ planLive (runSegmentPaused tag length time s)) :
    Moves k s (runSegmentPaused tag length time s) :=
  takeReport_moves 0x10 tag false length time v slot ends fun o length _ v ends =>
    afterPaused_moves o length v slot ends

theorem runSegmentFault_moves (tag cause length time : Nat) (v : k.line ∨ mutedAndSilent s) (slot : k.slot)
    (ends : k.kept = none ∨ planLive (runSegmentFault tag cause length time s)) :
    Moves k s (runSegmentFault tag cause length time s) := by
  unfold runSegmentFault at ends ⊢
  split at ends
  · exact refuse_moves ..
  · exact takeReport_moves 0x11 tag false length time v slot ends fun o length _ v ends =>
      afterFault_moves _ o length v slot ends

/-! ### CLOSE SLAB -/

theorem settlementFrames_plain (lines : List ShareLine) : ∀ r ∈ settlementFrames lines, r.isOrder = false := by
  intro r mem
  obtain rfl | mem := List.mem_cons.mp mem
  · rfl
  · obtain ⟨part, -, rfl⟩ := List.mem_map.mp mem
    rfl

/-- R93: the records a settlement lets go of are not CUTTING. -/
theorem letsGo_of_places {t : State} {id : Nat} (h : letsGo k s id)
    (same : t.register.places = s.register.places) : letsGo k t id := by
  intro kept slab r hr
  rw [findSlab_congr same] at hr
  exact h kept slab r hr

theorem scrapSlab_moves (slab : Nat) (lines : List ShareLine) (v : k.line ∨ mutedAndSilent s)
    (free : letsGo k s slab) : Moves k s (scrapSlab slab lines s) := by
  have posted := postMaterial_moves (k := k) lines s
  have same : (postMaterial lines s).register = s.register := by
    clear v free posted
    induction lines generalizing s with
    | nil => rfl
    | cons l rest ih =>
      refine (ih (s := postJob l.job (JobRecord.addMaterial l.area l.cents) s)).trans ?_
      rw [postJob_frame]
  have gone := posted.trans (setSlabState_moves (id := slab) (st := .gone) (.inl (free.congr same)))
  have retired := gone.trans (announce_moves (n := .retire slab 1) (gone.voice v) (by simp [Notice.kind]))
  exact retired.trans (stalePlan_moves slab .gone _)

theorem letsGo_scrapSlab (slab : Nat) (lines : List ShareLine) (s : State) :
    letsGo k (scrapSlab slab lines s) slab := by
  refine letsGo_of_places (s := setSlabState slab .gone (postMaterial lines s)) (letsGo_setSlabState (by simp)) ?_
  rw [scrapSlab, stalePlan_places]
  simp

/-- R94: the settlement of a slab, but for the slot. -/
def settleSlab (slab mode job : Nat) (s : State) : State :=
  let lines := if mode = 0 then scrapLines slab job s else []
  let t := reports (settlementFrames lines) s
  releaseClaim slab (if mode = 0 then scrapSlab slab lines t else setSlabState slab .stock t)

theorem settleSlab_moves (slab mode job : Nat) (v : k.line ∨ mutedAndSilent s) (free : letsGo k s slab) :
    Moves k s (settleSlab slab mode job s) := by
  have replied := reports_moves (k := k) (settlementFrames (if mode = 0 then scrapLines slab job s else [])) s
    (settlementFrames_plain _)
  have freeStill : letsGo k (reports (settlementFrames (if mode = 0 then scrapLines slab job s else [])) s) slab :=
    free.congr (by rw [reports_only_host])
  unfold settleSlab
  simp only
  split
  · have scrapped := replied.trans (scrapSlab_moves slab (if mode = 0 then scrapLines slab job s else [])
      (replied.voice v) freeStill)
    next zero =>
      rw [if_pos zero] at scrapped
      exact scrapped.trans (releaseClaim_moves (scrapped.voice v) (letsGo_scrapSlab slab _ _))
  · next other =>
    rw [if_neg other] at replied freeStill
    have stocked := replied.trans (setSlabState_moves (id := slab) (st := .stock) (.inl freeStill))
    exact stocked.trans (releaseClaim_moves (stocked.voice v) (letsGo_setSlabState (by simp)))

theorem runCloseSlab_eq (slab mode job : Nat) (s : State) : runCloseSlab slab mode job s =
    checked 0x12 (closeChecks slab mode job s) (fun s => clearSettled slab (settleSlab slab mode job s)) s := rfl

/-- R93: what CLOSE SLAB has tested of the slab. -/
theorem closeChecks_passed {slab mode job : Nat} (passed : ∀ c ∈ closeChecks slab mode job s, c.1 = false) :
    (∃ r, findSlab s slab = some r ∧ r.state = .cutOpen) ∧ isHeld s slab = true := by
  simp only [closeChecks, List.mem_cons, List.not_mem_nil, or_false, forall_eq_or_imp, forall_eq] at passed
  obtain ⟨-, present, -, cutOpen, held, -⟩ := passed
  refine ⟨?_, by simpa using held⟩
  cases found : findSlab s slab with
  | none => simp [found] at present
  | some r => exact ⟨r, rfl, by simpa [found] using cutOpen⟩

theorem clearSettled_moves (slab : Nat) (slot : k.slot) : Moves k s (clearSettled slab s) :=
  Moves.thenIf (c := abortedOn s slab = true) .refl ((releaseJobs_moves ..).trans (emptyActive_moves _ slot))

theorem runCloseSlab_moves (slab mode job : Nat) (v : k.line ∨ mutedAndSilent s) (slot : k.slot) :
    Moves k s (runCloseSlab slab mode job s) := by
  rw [runCloseSlab_eq]
  refine checked_moves fun passed => ?_
  obtain ⟨⟨r, found, cutOpen⟩, -⟩ := closeChecks_passed passed
  exact (settleSlab_moves slab mode job v (letsGo_of_found found (by simp [cutOpen]))).trans
    (clearSettled_moves slab slot)

end Host

end Sys2Proof.Machine

namespace Sys2Proof.Machine

open Sys2Proof Sys2Proof.Safety Relation

section Host
variable {k : Scope} {s : State}

/-! ### The cost table -/

/-- R137: a record put in an empty place. -/
theorem jobTableSound_set {jobs : List (Option JobRecord)} {i : Nat} {j : JobRecord} (sound : jobTableSound jobs)
    (fresh : ∀ q, some q ∈ jobs → q.number ≠ j.number) (good : recordSound j) :
    jobTableSound (jobs.set i (some j)) := by
  obtain ⟨distinct, records⟩ := sound
  refine ⟨?_, fun q mem => ?_⟩
  · clear records
    induction jobs generalizing i with
    | nil => simp
    | cons o rest ih =>
      have distinctRest : ((rest.filterMap fun o => o).map (·.number)).Nodup := by
        cases o with
        | none => simpa using distinct
        | some q =>
          simp only [List.filterMap_cons, List.map_cons, List.nodup_cons] at distinct
          exact distinct.2
      have freshRest : ∀ q, some q ∈ rest → q.number ≠ j.number := fun q mem => fresh q (by simp [mem])
      cases i with
      | zero =>
        simp only [List.set_cons_zero, List.filterMap_cons, List.map_cons, List.nodup_cons]
        refine ⟨fun mem => ?_, distinctRest⟩
        obtain ⟨q, inRest, same⟩ := List.mem_map.mp mem
        obtain ⟨o, inTable, rfl⟩ := List.mem_filterMap.mp inRest
        exact freshRest q inTable same
      | succ i =>
        have rest' := ih (i := i) freshRest distinctRest
        cases o with
        | none => simpa using rest'
        | some q =>
          simp only [List.set_cons_succ, List.filterMap_cons, List.map_cons, List.nodup_cons] at distinct ⊢
          refine ⟨fun mem => ?_, rest'⟩
          obtain ⟨p, inRest, same⟩ := List.mem_map.mp mem
          obtain ⟨o, inTable, rfl⟩ := List.mem_filterMap.mp inRest
          obtain old | new := List.mem_or_eq_of_mem_set inTable
          · exact distinct.1 (List.mem_map.mpr ⟨p, List.mem_filterMap.mpr ⟨_, old, rfl⟩, same⟩)
          · obtain rfl := Option.some.inj new
            exact fresh q (by simp) same.symm
  · obtain old | new := List.mem_or_eq_of_mem_set mem
    · exact records q old
    · obtain rfl := Option.some.inj new
      exact good

/-- R137: a record that its number finds nothing of stands nowhere. -/
theorem number_ne_of_findJob {number : Nat} (none : findJob s number = none) {q : JobRecord} (mem : some q ∈ s.jobs) :
    q.number ≠ number := by
  intro same
  have := List.findSome?_eq_none_iff.mp none (some q) mem
  simp [same] at this

theorem newJob_sound (job : Nat) (estimate : Option Nat) : recordSound (newJob job estimate) := by
  refine ⟨by simp [newJob], ?_, by simp [newJob, totalHolds]⟩
  simp [newJob, JobRecord.counts]

theorem runOpenJob_moves (job : Nat) (estimate : Option Nat) : Moves k s (runOpenJob job estimate s) := by
  refine refusedIf_moves fun _ => refusedIf_moves fun new => ?_
  split
  · exact refuse_moves ..
  · refine (accept_moves 0x13 s).trans (.trans (.single (.jobs (by simp) fun sound => ?_)) (queueWrite_moves ..))
    refine jobTableSound_set sound (fun q mem => ?_) (newJob_sound job estimate)
    have none : findJob s job = Option.none := by simpa using new
    exact number_ne_of_findJob none (by simpa [accept, acceptWith] using mem)

theorem runCloseJob_moves (job : Nat) : Moves k s (runCloseJob job s) := by
  refine refusedIf_moves fun _ => ?_
  split
  · exact refuse_moves ..
  · next j found =>
    refine refusedIf_moves fun _ => refusedIf_moves fun unused => ?_
    refine (accept_moves 0x14 s).trans (.trans (mapJob_moves (f := fun j => { j with closed := true }) _ ?_)
      (storeJob_moves ..))
    intro sound q mem same
    obtain ⟨inTable, isNumber⟩ := findJob_eq_some found
    have inTable : some j ∈ (accept 0x14 s).jobs := by simpa [accept, acceptWith] using inTable
    obtain rfl := record_unique sound.1 mem inTable (same.trans isNumber.symm)
    exact ⟨same, fun used => absurd used unused, (sound.2 q mem).2⟩

/-- R140: records taken out of the table. -/
theorem jobTableSound_filter {jobs : List (Option JobRecord)} {keep : JobRecord → Bool} (sound : jobTableSound jobs) :
    jobTableSound (jobs.map fun o => o.filter keep) := by
  obtain ⟨distinct, records⟩ := sound
  refine ⟨distinct.sublist (List.Sublist.map _ ?_), fun q mem => ?_⟩
  · rw [List.filterMap_map]
    clear distinct records
    induction jobs with
    | nil => simp
    | cons o rest ih =>
      cases o with
      | none => simpa using ih
      | some j =>
        by_cases kept : keep j
        · simpa [List.filterMap_cons, Option.filter_some, kept] using ih
        · simpa [List.filterMap_cons, Option.filter_some, kept] using ih.trans (List.sublist_cons_self j _)
  · obtain ⟨o, inTable, kept⟩ := List.mem_map.mp mem
    obtain ⟨rfl, -⟩ := Option.filter_eq_some_iff.mp kept
    exact records q inTable

theorem runFreeJob_moves (job : Nat) : Moves k s (runFreeJob job s) := by
  refine refusedIf_moves fun _ => ?_
  split
  · exact refuse_moves ..
  · split
    · exact ((accept_moves 0x15 s).trans (storeJob_moves ..)).trans
        (.single (.jobs (by simp) jobTableSound_filter))
    · exact refuse_moves ..

theorem runReadJob_moves (job : Nat) : Moves k s (runReadJob job s) := by
  refine refusedIf_moves fun _ => ?_
  split
  · exact refuse_moves ..
  · exact (accept_moves 0x16 s).trans (reports_moves _ _ (by simp [Report.isOrder]))

/-! ### The station -/

theorem runPurgeNow_moves (v : k.line ∨ mutedAndSilent s) : Moves k s (runPurgeNow s) := by
  refine refusedIf_moves fun _ => refusedIf_moves fun _ => refusedIf_moves fun _ => refusedIf_moves fun _ => ?_
  have accepted := (accept_moves (k := k) 0x17 s).trans
    (sump_moves { (accept 0x17 s).sump with retry := none } _)
  exact accepted.trans (wantPress_moves (accepted.voice v))

theorem runReadStation_moves : Moves k s (runReadStation s) := by
  have viewed := (accept_moves (k := k) 0x19 s).trans (report_moves (.stationView (stationView s)) _)
  exact viewed.thenIf (.single (.overflow false _))

theorem runReadPeers_moves : Moves k s (runReadPeers s) :=
  (accept_moves 0x1A s).trans (reports_moves _ _ (by simp [peerFrames, peerFrame, Report.isOrder]))

theorem runWriteConfig_moves (fields : ConfigFields) : Moves k s (runWriteConfig fields s) := by
  refine refusedIf_moves fun _ => ?_
  exact (accept_moves 0x1C s).trans (.trans (.single (.newSettings (some fields) (accept 0x1C s).store.newCalibration _))
    (queueWrite_moves ..))

theorem runWriteCalibration_moves (kRecycled kFresh : Nat) : Moves k s (runWriteCalibration kRecycled kFresh s) := by
  refine refusedIf_moves fun _ => ?_
  exact (accept_moves 0x1D s).trans (.trans
    (.single (.newSettings (accept 0x1D s).store.newConfig (some (kRecycled, kFresh)) _)) (queueWrite_moves ..))

end Host

end Sys2Proof.Machine

/-! PROOF. Every command as a run of changes: those of the operations below it, and the few a command makes itself. -/

namespace Sys2Proof.Machine

open Sys2Proof Sys2Proof.Safety Relation

/-! ### The transmit queue at the ends of an attempt -/

/-- R161, R113: the order of a transmit queue under the next age. -/
def transmitFits (q : List TxEntry) (nextAge : Nat) : Prop :=
  (q.Pairwise fun a b => a.notice.kind < b.notice.kind ∨ (a.notice.kind = b.notice.kind ∧ a.age < b.age)) ∧
  (∀ e ∈ q, e.age < nextAge) ∧ (q.filter (·.sending)).length ≤ 1 ∧
  (q.filter fun e => !e.sending && e.notice.kind == 4).length ≤ 1

theorem transmitOrdered_iff (s : State) : transmitOrdered s ↔ transmitFits s.floor.queue s.floor.nextAge := Iff.rfl

/-- R161: entries changed in place, each keeping its kind and age. -/
theorem transmitFits_map {q : List TxEntry} {n : Nat} {f : TxEntry → TxEntry} (fits : transmitFits q n)
    (keeps : ∀ e ∈ q, (f e).notice.kind = e.notice.kind ∧ (f e).age = e.age)
    (sending : ((q.map f).filter (·.sending)).length ≤ 1)
    (demands : ((q.map f).filter fun e => !e.sending && e.notice.kind == 4).length ≤ 1) : transmitFits (q.map f) n := by
  obtain ⟨order, ages, -, -⟩ := fits
  refine ⟨?_, ?_, sending, demands⟩
  · rw [List.pairwise_map]
    refine order.imp_of_mem fun {a b} ha hb before => ?_
    rw [(keeps a ha).1, (keeps a ha).2, (keeps b hb).1, (keeps b hb).2]
    exact before
  · simp only [List.forall_mem_map]
    intro e he
    rw [(keeps e he).2]
    exact ages e he

theorem transmitFits.sublist {p q : List TxEntry} {n : Nat} (fits : transmitFits q n) (sub : p.Sublist q) :
    transmitFits p n := by
  obtain ⟨order, ages, sending, demands⟩ := fits
  exact ⟨order.sublist sub, fun e he => ages e (sub.subset he), ((sub.filter _).length_le).trans sending,
    ((sub.filter _).length_le).trans demands⟩

/-- R113: a queue with nothing being sent and at most two DEMANDs, one of them made to give way. -/
theorem transmitFits_oneDemand {q : List TxEntry} {n : Nat}
    (order : q.Pairwise fun a b => a.notice.kind < b.notice.kind ∨ (a.notice.kind = b.notice.kind ∧ a.age < b.age))
    (ages : ∀ e ∈ q, e.age < n) (idle : ∀ e ∈ q, e.sending = false)
    (demands : (q.filter isWaitingDemand).length ≤ 2) : transmitFits (oneDemand q) n := by
  have none (p : List TxEntry) (h : ∀ e ∈ p, e.sending = false) : p.filter (·.sending) = [] :=
    List.filter_eq_nil_iff.mpr fun e he => by simp [h e he]
  unfold oneDemand
  split
  · next older newer rest found =>
    have mem (e : TxEntry) (h : e ∈ older :: newer :: rest) : e ∈ q ∧ isWaitingDemand e = true := by
      rw [← found] at h
      exact List.mem_filter.mp h
    have hOlder := mem older (by simp)
    have hNewer := mem newer (by simp)
    have kinds : older.notice.kind = 4 ∧ newer.notice.kind = 4 := by
      simp only [isWaitingDemand, Bool.and_eq_true, beq_iff_eq] at hOlder hNewer
      exact ⟨hOlder.2.2, hNewer.2.2⟩
    have sub := List.erase_sublist (a := newer) (l := q)
    have count : ((q.erase newer).filter isWaitingDemand).length ≤ 1 := by
      rw [← List.erase_filter, found]
      rw [found] at demands
      by_cases same : older = newer
      · simp only [same, List.erase_cons_head, List.length_cons] at demands ⊢
        omega
      · rw [List.erase_cons_tail (by simpa using same), List.erase_cons_head]
        simp only [List.length_cons] at demands ⊢
        omega
    have waits (e : TxEntry) : isWaitingDemand (if e = older then
        { older with notice := newer.notice, attempts := 0 } else e) = isWaitingDemand e := by
      split
      · next same => simp [isWaitingDemand, same, kinds]
      · rfl
    have fits : transmitFits (q.erase newer) n := by
      refine ⟨order.sublist sub, fun e he => ages e (sub.subset he), ?_, count⟩
      rw [none _ fun e he => idle e (sub.subset he)]
      simp
    refine transmitFits_map fits ?_ ?_ ?_
    · intro e _
      split
      · next same => simp [same, kinds]
      · exact ⟨rfl, rfl⟩
    · rw [none]
      · simp
      · simp only [List.forall_mem_map]
        intro e he
        split
        · exact idle older hOlder.1
        · exact idle e (sub.subset he)
    · change ((List.map _ _).filter isWaitingDemand).length ≤ 1
      rw [List.filter_map, List.length_map]
      simpa only [Function.comp_def, waits] using count
  · next few =>
    refine ⟨order, ages, by simp [none q idle], ?_⟩
    change (q.filter isWaitingDemand).length ≤ 1
    rcases h : q.filter isWaitingDemand with - | ⟨a, - | ⟨b, rest⟩⟩
    · simp
    · simp
    · exact absurd h (few a b rest)

/-- R158, R159: the notice being sent is back in the queue, its attempts changed or not. -/
theorem transmitFits_back {q : List TxEntry} {n : Nat} {f : TxEntry → TxEntry} (fits : transmitFits q n)
    (keeps : ∀ e, (f e).notice = e.notice ∧ (f e).age = e.age) (idle : ∀ e, (f e).sending = false) :
    transmitFits (oneDemand (q.map f)) n := by
  obtain ⟨order, ages, sending, demands⟩ := fits
  refine transmitFits_oneDemand ?_ ?_ (by simp [idle]) ?_
  · rw [List.pairwise_map]
    refine order.imp fun {a b} before => ?_
    rwa [(keeps a).1, (keeps a).2, (keeps b).1, (keeps b).2]
  · simp only [List.forall_mem_map, keeps]
    exact ages
  · have split : (q.filter fun e => e.notice.kind == 4).length ≤
        (q.filter (·.sending)).length + (q.filter fun e => !e.sending && e.notice.kind == 4).length := by
      clear order ages sending demands
      induction q with
      | nil => simp
      | cons e rest ih =>
        simp only [List.filter_cons]
        cases e.sending <;> cases e.notice.kind == 4 <;> simp <;> omega
    rw [List.filter_map, List.length_map]
    simp only [Function.comp_def, isWaitingDemand, keeps, idle, Bool.not_false, Bool.true_and]
    omega

theorem transmitFits_begin {q : List TxEntry} {n : Nat} (idle : q.find? (·.sending) = none)
    (fits : transmitFits q n) : transmitFits (beginSending q) n := by
  cases q with
  | nil => exact fits
  | cons e rest =>
    obtain ⟨order, ages, -, demands⟩ := fits
    have none := List.find?_eq_none.mp idle
    have restIdle : rest.filter (·.sending) = [] :=
      List.filter_eq_nil_iff.mpr fun x hx => none x (by simp [hx])
    refine ⟨?_, ?_, ?_, ?_⟩
    · rw [List.pairwise_cons] at order
      exact List.pairwise_cons.mpr order
    · simp only [beginSending, List.forall_mem_cons] at ages ⊢
      exact ages
    · simp [beginSending, restIdle]
    · rw [beginSending, List.filter_cons_of_neg (by simp)]
      exact (((List.sublist_cons_self e rest).filter _).length_le).trans demands

end Sys2Proof.Machine

namespace Sys2Proof.Machine

open Sys2Proof Sys2Proof.Safety Relation

/-! ### The changes a command makes itself -/

/-- R169, R172, R71: what the host link's own events keep of the queues. -/
def hostKept (a b : HostLink) : Prop :=
  b.outbound.length ≤ a.outbound.length ∧ heldBytes b.outbound ≤ heldBytes a.outbound ∧
    (unreadOf b.outbound).Sublist (unreadOf a.outbound) ∧
    (a.inbound.length ≤ 12 ∧ (a.inbound.map inboundSize).sum ≤ 384 →
      b.inbound.length ≤ 12 ∧ (b.inbound.map inboundSize).sum ≤ 384)

/-- R156, R163: slots are driven in step and in ACTIVE alone. -/
def driven (f : Floor) : Prop := f.drive ≠ none → f.inStep = true ∧ f.attach = .active

/-- R163, R166: what a muted, silent controller keeps. -/
def stillSilent (a b : Floor) : Prop :=
  b.attach = a.attach ∧ b.window = a.window ∧ b.lineOut = a.lineOut ∧ (b.drive = a.drive ∨ b.drive = none)

/-- R150: the copies of job records in the store, and the one going out. -/
def copiesHold (st : Store) : Prop :=
  (∀ bytes ∈ st.jobs, copyHolds bytes) ∧ ∀ w i, st.inFlight = some w → w.place = .job i → copyHolds w.bytes

/-- R183: what an event of the store port keeps. -/
def storeKept (a b : Store) : Prop :=
  b.queue = a.queue ∧ b.slabs.length = a.slabs.length ∧ b.jobs.length = a.jobs.length ∧ (copiesHold a → copiesHold b)

/-- R185: the records gone, their pending writes withdrawn. -/
def recordsErased (s : State) : State :=
  { s with
    register := { s.register with places := s.register.places.map fun _ => none, reservations := 0 }
    jobs := s.jobs.map fun _ => none
    store := { s.store with queue := s.store.queue.filter fun p => !p.isRecord } }

/-- A change of a command: one of an operation's, or one of its own, `moved` being that it may move the attach state. -/
inductive Change (k : Scope) (moved : Prop) : State → State → Prop
  | move {s t : State} : Move k s t → Change k moved s t
  | host {h : HostLink} {s : State} : hostKept s.host h → Change k moved s { s with host := h }
  | floor {f : Floor} {s : State} : f.queue = s.floor.queue → f.nextAge = s.floor.nextAge →
      (k.line ∨ stillSilent s.floor f) → (driven s.floor → driven f) → (moved ∨ f.attach = s.floor.attach) →
      Change k moved s { s with floor := f }
  | queue {q : List TxEntry} {s : State} : k.line → q.length ≤ s.floor.queue.length →
      (transmitFits s.floor.queue s.floor.nextAge → transmitFits q s.floor.nextAge) →
      Change k moved s { s with floor := { s.floor with queue := q } }
  | settles {f : ClaimEntry → ClaimEntry} {s : State} :
      (∀ e, (f e).handle = e.handle ∧ (f e).resource = e.resource ∧ (f e).stage = e.stage) →
      Change k moved s { s with claims := { s.claims with entries := s.claims.entries.map f } }
  | store {st : Store} {s : State} : storeKept s.store st → Change k moved s { s with store := st }
  | station (x : Station) (s : State) : Change k moved s { s with station := x }
  | used (n : Nat) (s : State) : Change k moved s { s with freeUses := n }
  | erased (s : State) : k.kept = none → Change k moved s (recordsErased s)
  | started (x : Station) (s : State) : k.line → k.slot → k.kept = none → moved → Change k moved s (startUp x s)

/-- What a command does. -/
abbrev Run (k : Scope) (moved : Prop) : State → State → Prop := ReflTransGen (Change k moved)

section Run
variable {k : Scope} {moved : Prop} {s t u : State}

theorem Run.trans (h : Run k moved s t) (h' : Run k moved t u) : Run k moved s u := ReflTransGen.trans h h'

theorem Moves.run (h : Moves k s t) : Run k moved s t := by
  induction h with
  | refl => exact .refl
  | tail _ move ih => exact ih.tail (.move move)

/-- What a command may do, and what it finds: it may hand notices or finds a muted, silent station; and it keeps nothing
or leaves the plan in work that it finds on an ACTIVE line. -/
structure Allowed (k : Scope) (s t : State) : Prop where
  voice : k.line ∨ mutedAndSilent s
  slot : k.slot
  ends : k.kept = none ∨ (planLive t ∧ s.floor.attach = .active ∧ ∀ id, k.kept = some id → activeOn s id = true)

theorem Allowed.kept (ok : Allowed k s t) : ∀ id, k.kept = some id → activeOn s id = true := by
  intro id mine
  obtain h | ⟨-, -, h⟩ := ok.ends
  · simp [h] at mine
  · exact h id mine

theorem Allowed.live (ok : Allowed k s t) : k.kept = none ∨ planLive t := ok.ends.imp_right fun h => h.1

theorem Allowed.none_of_inactive (ok : Allowed k s t) (other : s.floor.attach ≠ .active) : k.kept = none :=
  ok.ends.resolve_right fun h => other h.2.1

theorem planLive_launchWrite (s : State) : planLive (launchWrite s) ↔ planLive s := by simp [planLive]

/-- R171: a command taken leaves the queue, is run and starts the next write; one not taken changes nothing. -/
theorem takeCommand_run {straps : Nat} {c : Instr} {run : State → State}
    (h : takeCommand straps c run s = .next t) (ok : Allowed k s t)
    (runs : ∀ u, Allowed k u (run u) → Run k moved u (run u)) : Run k moved s t := by
  obtain rfl := Host.Outcome.next.inj h
  by_cases taken : canTake straps c s = true
  · rw [if_pos taken] at ok ⊢
    have popped : Moves k s (popInbound s) := .single (.pop s)
    have allowed : Allowed k (popInbound s) (run (popInbound s)) := ⟨popped.voice ok.voice, ok.slot,
      ok.ends.imp_right fun ⟨live, active, kept⟩ => ⟨(planLive_launchWrite _).mp live, active, kept⟩⟩
    exact popped.run.trans ((runs _ allowed).trans (launchWrite_moves _).run)
  · rw [if_neg taken]

/-! ### Host commands -/

theorem runJoin_run (v : k.line ∨ mutedAndSilent s) (h : moved) : Run k moved s (runJoin s) := by
  unfold runJoin
  split
  · exact (refuse_moves ..).run
  · next joins =>
    have inert : s.floor.attach = .inert := by simpa using (not_or.mp joins).1
    have line : k.line := v.resolve_right fun silent => by simp [silent.1] at inert
    exact (accept_moves 0x18 s).run.tail (.floor rfl rfl (.inl line) (fun _ none => absurd rfl none) (.inl h))

theorem runSetStation_run (first second number : Nat) : Run k moved s (runSetStation first second number s) := by
  unfold runSetStation
  split
  · exact (refuse_moves ..).run
  · split
    · exact (refuse_moves ..).run
    · exact (acceptWith_moves 0x1B (.number number) s).run.tail (.station _ _)

theorem staleErased_moves : Moves k s (staleErased s) := by
  unfold staleErased
  cases s.staged.plan? with
  | none => exact .refl
  | some p => exact stalePlan_moves ..

theorem runStoreErase_run (rests : s.floor.attach ≠ .active → k.kept = none) : Run k moved s (runStoreErase s) := by
  unfold runStoreErase
  split
  · exact (refuse_moves ..).run
  · next inert =>
    have none := rests (by simp_all)
    exact (((accept_moves 0x1E s).trans staleErased_moves).run.tail (.erased _ none)).trans (queueWrite_moves ..).run

/-! ### The host link's own events -/

theorem host_run {h : HostLink} (kept : hostKept s.host h) : Run k moved s { s with host := h } := .single (.host kept)

/-- The outbound queue as it was, the inbound queue within its limits. -/
theorem hostKept_of_outbound {a b : HostLink} (same : b.outbound = a.outbound)
    (inbound : a.inbound.length ≤ 12 ∧ (a.inbound.map inboundSize).sum ≤ 384 →
      b.inbound.length ≤ 12 ∧ (b.inbound.map inboundSize).sum ≤ 384) : hostKept a b := by
  rw [hostKept, same]
  exact ⟨le_rfl, le_rfl, .refl _, inbound⟩

theorem hostKept_of_queues {a b : HostLink} (same : b.outbound = a.outbound) (inbound : b.inbound = a.inbound) :
    hostKept a b := hostKept_of_outbound same (by rw [inbound]; exact id)

theorem hostKept.refl (a : HostLink) : hostKept a a := hostKept_of_queues rfl rfl

/-- A command that changes the host link alone. -/
theorem run_of_host (frame : t = { s with host := t.host }) (kept : hostKept s.host t.host) : Run k moved s t := by
  rw [frame]
  exact host_run kept

theorem placeInbound_kept (e : Inbound) (since : Nat) (s : State) :
    placeInbound e since s = { s with host := (placeInbound e since s).host } ∧
      hostKept s.host (placeInbound e since s).host := by
  unfold placeInbound
  split
  · next fits =>
    refine ⟨rfl, hostKept_of_outbound rfl fun _ => ?_⟩
    simp only [fitsAtLength, Bool.and_eq_true, decide_eq_true_eq] at fits
    simp only [List.length_append, List.map_append, List.sum_append, List.length_singleton, List.map_singleton,
      List.sum_singleton]
    omega
  · exact ⟨rfl, hostKept_of_queues rfl rfl⟩

theorem inboundFrame_run (kind : Nat) (body : List Byte) (taken : Nat)
    (h : execInboundFrame kind body taken s = .next t) : Run k moved s t := by
  obtain rfl := Host.Outcome.next.inj h
  split
  · split
    · exact host_run (hostKept_of_queues rfl rfl)
    · obtain ⟨frame, kept⟩ := placeInbound_kept (inboundEntry kind body) taken (shift (filler (2 + body.length)) s)
      refine run_of_host ?_ kept
      simp only
      rw [frame]
      rfl
  · unfold shiftSpent
    split
    · exact host_run (hostKept_of_queues rfl rfl)
    · exact .refl

theorem malformedFrame_run (h : execMalformedFrame s = .next t) : Run k moved s t := by
  obtain rfl := Host.Outcome.next.inj h
  split
  · split
    · exact (Moves.trans (.single (.pop s)) (refuse_moves ..)).run
    · exact .refl
  · exact .refl

theorem heldBytes_beginHead (q : List Outbound) : heldBytes (beginHead q) = heldBytes q := by
  cases q <;> rfl

theorem shiftHead_kept (n : Nat) (s : State) :
    shiftHead n s = { s with host := (shiftHead n s).host } ∧ hostKept s.host (shiftHead n s).host := by
  unfold shiftHead
  split
  · exact ⟨rfl, hostKept.refl _⟩
  · split
    · refine ⟨rfl, ?_, (heldBytes_beginHead _).le, ?_, id⟩
      · cases s.host.outbound <;> exact le_rfl
      · cases s.host.outbound with
        | nil => exact .refl _
        | cons f rest =>
          rw [beginHead, unreadOf_cons, unreadOf_cons, if_neg (by simp [waitsUnread])]
          split
          · exact List.sublist_cons_self ..
          · exact .refl _
    · exact ⟨rfl, hostKept.refl _⟩

theorem shiftSpent_run (n : Nat) : Run k moved s (shiftSpent n s) := by
  unfold shiftSpent
  split
  · exact host_run (hostKept_of_queues rfl rfl)
  · exact .refl

theorem shiftHead_run (n : Nat) : Run k moved s (shiftHead n s) :=
  run_of_host (shiftHead_kept n s).1 (shiftHead_kept n s).2

theorem shiftCut_run (cut : CutFrame) : Run k moved s (shiftCut cut s) := by
  unfold shiftCut
  split
  · exact .refl
  · exact host_run (hostKept_of_queues rfl rfl)

theorem cutShort_run (cut : CutFrame) : Run k moved s (cutShort cut s) := by
  unfold cutShort
  cases cut with
  | none => exact .refl
  | beforeLength => exact host_run (hostKept_of_queues rfl rfl)
  | afterLength kind length taken body =>
    simp only
    split
    · exact host_run (hostKept_of_queues rfl rfl)
    · exact .refl
  | reading n => exact .refl

theorem selectInactive_run (cut : CutFrame) (h : execSelectInactive cut s = .next t) : Run k moved s t := by
  obtain rfl := Host.Outcome.next.inj h
  refine Run.trans (t := match s.host.phase with
      | .idle => s
      | .write => shiftCut cut (if s.host.startingUp then s else cutShort cut s)
      | .read => cutReading cut s
      | .spent => shiftCut cut s) ?_ (host_run (hostKept_of_queues rfl rfl))
  cases s.host.phase with
  | idle => exact .refl
  | write =>
    refine Run.trans ?_ (shiftCut_run cut)
    split
    · exact .refl
    · exact cutShort_run cut
  | read =>
    cases cut with
    | none => exact .refl
    | beforeLength => exact .refl
    | afterLength kind length taken body => exact .refl
    | reading n => exact shiftHead_run n
  | spent => exact shiftCut_run cut

theorem transactionStart_run (h : execTransactionStart s = .next t) : Run k moved s t := by
  obtain rfl := Host.Outcome.next.inj h
  split
  · exact host_run (hostKept_of_queues rfl rfl)
  · exact .refl

theorem readMarker_run (h : execReadMarker s = .next t) : Run k moved s t := by
  obtain rfl := Host.Outcome.next.inj h
  split
  · exact host_run (hostKept_of_queues rfl rfl)
  · exact shiftSpent_run 1

theorem frameReadBegun_run (h : execFrameReadBegun s = .next t) : Run k moved s t := by
  obtain rfl := Host.Outcome.next.inj h
  split
  · exact shiftHead_run 1
  · exact shiftSpent_run 1

theorem outboundFrameRead_run (h : execOutboundFrameRead s = .next t) : Run k moved s t := by
  obtain rfl := Host.Outcome.next.inj h
  split
  · unfold shiftNext
    split
    · exact host_run (hostKept_of_queues rfl rfl)
    · next f rest outbound =>
      refine host_run ⟨by simp [outbound], by simp [outbound, heldBytes], ?_, id⟩
      rw [outbound, unreadOf_cons]
      split
      · exact List.sublist_cons_self ..
      · exact .refl _
  · exact shiftSpent_run 1

theorem startUpEnd_run (h : execStartUpEnd s = .next t) : Run k moved s t := by
  obtain rfl := Host.Outcome.next.inj h
  split
  · exact host_run ⟨by simp, by simp [heldBytes], List.nil_sublist _, by simp⟩
  · exact .refl

end Run

end Sys2Proof.Machine

namespace Sys2Proof.Machine

open Sys2Proof Sys2Proof.Safety Relation

section Run
variable {k : Scope} {moved : Prop} {s t u : State}

/-! ### Contention and the receiver -/

theorem loseLine_silent (silent : mutedAndSilent s) : loseLine none s = s := by
  obtain ⟨-, queue, -⟩ := silent
  rw [loseLine, backToQueue, stopDriving, queue]
  change { s with floor := { s.floor with queue := [] } } = s
  rw [← queue]

theorem sendingEntry_silent (silent : mutedAndSilent s) : sendingEntry s = none := by
  simp [sendingEntry, silent.2.1]

/-- What the controller alone changes, the queue and the attach state as they were. -/
theorem floor_run {f : Floor} (queue : f.queue = s.floor.queue) (age : f.nextAge = s.floor.nextAge)
    (attach : f.attach = s.floor.attach) (silent : k.line ∨ stillSilent s.floor f) (drives : driven s.floor → driven f) :
    Run k moved s { s with floor := f } := .single (.floor queue age silent drives (.inr attach))

theorem loseLine_run (bit : Option Nat) (line : k.line) : Run k moved s (loseLine bit s) := by
  have stopped : Run k moved s (stopDriving bit s) := floor_run rfl rfl rfl (.inl line) id
  refine stopped.tail (.queue line ?_ fun fits => ?_)
  · exact (oneDemand_length_le _).trans (by rw [List.length_map])
  · exact transmitFits_back fits (fun _ => ⟨rfl, rfl⟩) fun _ => rfl

/-- R158: a notice being sent loses the line; a silent station sends none. -/
theorem loseSending_run (bit : Option Nat) (none : sendingEntry s = none → bit = none)
    (v : k.line ∨ mutedAndSilent s) : Run k moved s (loseLine bit s) := by
  obtain line | silent := v
  · exact loseLine_run bit line
  · rw [none (sendingEntry_silent silent), loseLine_silent silent]

theorem loseContention_run (kind station : Nat) (v : k.line ∨ mutedAndSilent s) :
    Run k moved s (loseContention kind station s) := by
  unfold loseContention
  split
  · next sends =>
    exact loseLine_run _ (v.resolve_right fun silent => by simp [silent.2.1] at sends)
  · exact .refl

theorem Run.sameAttach (h : Run k False s t) : t.floor.attach = s.floor.attach := by
  induction h with
  | refl => rfl
  | tail _ change ih =>
    refine Eq.trans ?_ ih
    cases change with
    | move m => exact (Moves.attach (.single m))
    | floor _ _ _ _ same => exact same.resolve_left id
    | started _ _ _ _ _ h => exact h.elim
    | _ => rfl

theorem Run.voice (h : Run k moved s t) (v : k.line ∨ mutedAndSilent s) : k.line ∨ mutedAndSilent t := by
  by_cases line : k.line
  · exact .inl line
  · refine .inr ?_
    have silent := v.resolve_left line
    clear v
    induction h with
    | refl => exact silent
    | tail _ change ih =>
      obtain ⟨muted, queue, window, entries⟩ := ih
      cases change with
      | move m =>
        obtain ⟨floor, claims⟩ := m.sameLine line
        rw [mutedAndSilent, floor, claims]
        exact ⟨muted, queue, window, entries⟩
      | floor q _ still _ _ =>
        obtain ⟨attach, window', -⟩ := still.resolve_left line
        exact ⟨attach.trans muted, q.trans queue, window'.trans window, entries⟩
      | queue h => exact absurd h line
      | settles =>
        refine ⟨muted, queue, window, ?_⟩
        simp [entries]
      | started _ _ h => exact absurd h line
      | _ => exact ⟨muted, queue, window, entries⟩

theorem Run.weaken (h : Run k False s t) : Run k moved s t := by
  induction h with
  | refl => exact .refl
  | tail _ change ih =>
    refine ih.tail ?_
    cases change with
    | move m => exact .move m
    | host h => exact .host h
    | floor a b c d e => exact .floor a b c d (.inr (e.resolve_left id))
    | queue a b c => exact .queue a b c
    | settles h => exact .settles h
    | store h => exact .store h
    | station x => exact .station x _
    | used n => exact .used n _
    | erased _ h => exact .erased _ h
    | started _ _ _ _ _ h => exact h.elim

/-- R163: no slot is driven in what is heard. -/
theorem quietDrive_run : Run k moved s (setDrive none s) :=
  floor_run rfl rfl rfl (.inr ⟨rfl, rfl, rfl, .inr rfl⟩) fun _ h => absurd rfl h

theorem takeNotice_run (kind station : Nat) (v : k.line ∨ mutedAndSilent s) :
    Run k moved s (takeNotice kind station s) := by
  refine ((loseContention_run kind station v).trans quietDrive_run).trans ?_
  exact floor_run rfl rfl rfl (.inr ⟨rfl, rfl, rfl, .inl rfl⟩) fun _ h => absurd rfl h

/-! ### Muting -/

theorem muteClaim_moves (e : ClaimEntry) (line : k.line) (none : k.kept = none) : Moves k s (muteClaim e s) := by
  have removed : Moves k s (removeClaim e.handle s) := .single (.unclaim line fun _ _ _ _ => letsGo_of_none none)
  unfold muteClaim
  simp only
  split
  · split
    · exact removed.trans (clearHolder_moves ..)
    · exact removed.trans (report_moves ..)
  · exact removed

theorem muteClaims_moves (line : k.line) (none : k.kept = none) : Moves k s (muteClaims s) := by
  unfold muteClaims
  generalize s.claims.entries = entries
  induction entries generalizing s with
  | nil => exact .refl
  | cons e rest ih => exact (muteClaim_moves e line none).trans ih

theorem mutePlan_moves (v : k.line ∨ mutedAndSilent s) (slot : k.slot) (none : k.kept = none) : Moves k s (mutePlan s) := by
  have aborts (record : FaultRecord) {u : State} (v : k.line ∨ mutedAndSilent u) : Moves k u (abortPlan record u) :=
    abortPlan_moves record v slot (letsGo_of_none none)
  unfold mutePlan
  simp only
  split
  · split
    · next o _ =>
      have stopped := stopOrder_moves o s slot
      exact stopped.trans (aborts _ (stopped.voice v))
    · exact aborts _ v
  · exact aborts _ v
  · exact aborts _ v
  · exact .refl
  · exact .refl
  · exact .refl

theorem muteSump_moves : Moves k s (muteSump s) := by
  unfold muteSump
  split
  · exact pressIdle_moves s
  · exact (sump_moves { s.sump with purge := none } s).trans (pressIdle_moves _)
  · exact .refl
  · exact .refl

theorem muteFloor_run (idle : s.floor.drive = none) (line : k.line) (h : moved) : Run k moved s (muteFloor s) := by
  have emptied : Run k moved s { s with floor := { s.floor with queue := [] } } :=
    .single (.queue line (by simp) fun _ => by simp [transmitFits])
  exact emptied.tail (.floor rfl rfl (.inl line) (fun _ h => absurd idle h) (.inl h))

theorem muteStation_active (s : State) : (muteStation s).active = (mutePlan (muteClaims (muteFloor s))).active := by
  unfold muteStation muteSump
  split <;> simp [stopRefresh, pressIdle]

theorem muteStation_run (idle : s.floor.drive = none) (line : k.line) (slot : k.slot) (none : k.kept = none)
    (h : moved) : Run k moved s (muteStation s) := by
  have after : Moves k (muteFloor s) (muteStation s) :=
    (((muteClaims_moves line none).trans (mutePlan_moves (.inl line) slot none)).trans (water_moves _ _)).trans
      (muteSump_moves.trans (trap_moves ..))
  exact (muteFloor_run idle line h).trans after.run

/-! ### What is heard -/

/-- R155 to R166: a notice that is heard. -/
theorem hearNotice_run (kind station : Nat) (demand : Option Nat) {owner : State → State}
    (ok : Allowed k s (hearNotice kind station demand owner s))
    (attach : some station = s.station.number → detectorArmed s = true → moved)
    (owners : ∀ u, (k.line ∨ mutedAndSilent u) → u.floor.inStep = true → Run k False u (owner u)) :
    Run k moved s (hearNotice kind station demand owner s) := by
  unfold hearNotice at ok ⊢
  split at ok
  · next deaf => rw [if_pos deaf]
  · next hears =>
    rw [if_neg hears]
    have taken := takeNotice_run (moved := False) kind station ok.voice
    have voice := taken.voice ok.voice
    by_cases own : s.station.number = some station
    · rw [if_pos own] at ok ⊢
      by_cases armed : detectorArmed s = true
      · rw [if_pos armed] at ok ⊢
        have line : k.line := ok.voice.resolve_right fun silent => by simp [detectorArmed, silent.1] at armed
        have none : k.kept = none := ok.live.resolve_right fun live => by
          rw [planLive_launchWrite, planLive, muteStation_active] at live
          exact mutePlan_not_live _ live
        exact (taken.weaken.trans (muteStation_run rfl line ok.slot none (attach own.symm armed))).trans
          (launchWrite_moves _).run
      · rw [if_neg armed]
        exact (taken.trans (owners _ voice rfl)).weaken.trans (launchWrite_moves _).run
    · rw [if_neg own]
      have heard := peerHeard_moves station demand voice (.inl ok.slot)
      have inStep : (peerHeard station demand (takeNotice kind station s)).floor.inStep = true := by
        obtain ⟨-, -, -, -, -, inStep, -⟩ := heard.sameControl
        rw [inStep]
        rfl
      exact ((taken.trans heard.run).trans (owners _ (heard.voice voice) inStep)).weaken.trans
        (launchWrite_moves _).run

theorem answerPoll_run (was : Bool) (resource : Nat) (v : k.line ∨ mutedAndSilent s) (inStep : s.floor.inStep = true) :
    Run k moved s (answerPoll was resource s) := by
  unfold answerPoll
  split
  · next answers =>
    have line : k.line := v.resolve_right fun silent => by simp [silent.1] at answers
    exact floor_run rfl rfl rfl (.inl line) fun _ _ => ⟨inStep, answers.2⟩
  · exact .refl

/-! ### Damaged notices -/

theorem spoilPoll_run (kind resource : Nat) (v : k.line ∨ mutedAndSilent s) (inStep : s.floor.inStep = true) :
    Run k moved s (spoilPoll kind resource s) := by
  unfold spoilPoll
  split
  · next answers =>
    have line : k.line := v.resolve_right fun silent => by simp [silent.1] at answers
    exact floor_run rfl rfl rfl (.inl line) fun _ _ => ⟨inStep, answers.2⟩
  · exact .refl

theorem loseContention_inStep (kind station : Nat) (s : State) :
    (loseContention kind station s).floor.inStep = s.floor.inStep := by
  unfold loseContention
  split <;> rfl

theorem checkError_run (kind station resource : Nat) (h : execCheckError kind station resource s = .next t)
    (v : k.line ∨ mutedAndSilent s) : Run k moved s t := by
  obtain rfl := Host.Outcome.next.inj h
  split
  · split
    · next inStep =>
      have counted : Run k False s (countCheckError (setDrive none (loseContention kind station s))) :=
        ((loseContention_run kind station v).trans quietDrive_run).trans
          (floor_run rfl rfl rfl (.inr ⟨rfl, rfl, rfl, .inl rfl⟩) id)
      exact (counted.trans (spoilPoll_run kind resource (counted.voice v)
        ((loseContention_inStep kind station s).trans inStep))).weaken
    · exact quietDrive_run
  · exact .refl

theorem formatError_run (kind station resource : Nat) (h : execFormatError kind station resource s = .next t)
    (v : k.line ∨ mutedAndSilent s) : Run k moved s t := by
  obtain rfl := Host.Outcome.next.inj h
  split
  · have counted : Run k False s (countFormatError (setDrive none (loseContention kind station s))) :=
      ((loseContention_run kind station v).trans quietDrive_run).trans
        (floor_run rfl rfl rfl (.inr ⟨rfl, rfl, rfl, .inl rfl⟩) id)
    simp only
    split
    · next inStep =>
      exact (counted.trans (spoilPoll_run kind resource (counted.voice v)
        ((loseContention_inStep kind station s).trans inStep))).weaken
    · exact counted.weaken
  · exact .refl

/-- R156: out of step, no slot driven. -/
theorem loseStep_run : Run k moved s (setDrive none (loseStep s)) := by
  unfold loseStep
  split
  · exact floor_run rfl rfl rfl (.inr ⟨rfl, rfl, rfl, .inr rfl⟩) fun _ h => absurd rfl h
  · exact quietDrive_run

theorem countUse_run (used : Bool) : Run k moved s (countUse used s) := .single (.used _ s)

theorem lossOfStep_run (h : execLossOfStep s = .next t) (v : k.line ∨ mutedAndSilent s) : Run k moved s t := by
  obtain rfl := Host.Outcome.next.inj h
  split
  · split
    · refine ((loseSending_run (lostToUnknown s) (fun none => ?_) v).trans (countUse_run _)).trans loseStep_run
      simp [lostToUnknown, none]
    · exact quietDrive_run
  · exact .refl

theorem stuckLine_run (h : execStuckLine s = .next t) (v : k.line ∨ mutedAndSilent s) : Run k moved s t := by
  obtain rfl := Host.Outcome.next.inj h
  split
  · have lost := loseSending_run (k := k) (moved := moved) (lostTo 0 s) (fun none => by simp [lostTo, none]) v
    have counted := lost.trans (floor_run (f := (countLineFault (loseLine (lostTo 0 s) s)).floor) rfl rfl rfl
      (.inr ⟨rfl, rfl, rfl, .inl rfl⟩) id)
    exact (counted.trans loseStep_run).trans (trap_moves ..).run
  · exact .refl

theorem receiverResync_run (h : execReceiverResync s = .next t) : Run k moved s t := by
  obtain rfl := Host.Outcome.next.inj h
  split
  · exact floor_run rfl rfl rfl (.inr ⟨rfl, rfl, rfl, .inr rfl⟩) fun _ h => absurd rfl h
  · exact .refl

end Run

end Sys2Proof.Machine

namespace Sys2Proof.Machine

open Sys2Proof Sys2Proof.Safety Relation

section Run
variable {k : Scope} {moved : Prop} {s t u : State}

/-! ### What is sent -/

/-- R161: a notice is being sent only by a station that speaks. -/
theorem line_of_sending {e : TxEntry} (sends : sendingEntry s = some e) (v : k.line ∨ mutedAndSilent s) : k.line :=
  v.resolve_right fun silent => by simp [sendingEntry_silent silent] at sends

theorem transmitAttempt_run (h : execTransmitAttempt s = .next t) (v : k.line ∨ mutedAndSilent s) : Run k moved s t := by
  obtain rfl := Host.Outcome.next.inj h
  split
  · next may =>
    simp only [mayTransmit, Bool.and_eq_true, beq_iff_eq, Option.isNone_iff_eq_none] at may
    obtain ⟨⟨⟨active, -⟩, idle⟩, -⟩ := may
    have line : k.line := v.resolve_right fun silent => by simp [silent.1] at active
    split
    · exact .refl
    · next e rest queue =>
      have begun : Run k moved s { s with floor := { s.floor with queue := beginSending s.floor.queue } } :=
        .single (.queue line (by cases s.floor.queue <;> simp [beginSending]) (transmitFits_begin idle))
      exact begun.trans (floor_run rfl rfl rfl (.inl line) fun _ h => absurd rfl h)
  · exact .refl

theorem fallOut_run : Run k moved s (fallOut s) :=
  floor_run rfl rfl rfl (.inr ⟨rfl, rfl, rfl, .inr rfl⟩) fun _ h => absurd rfl h

theorem requeueSending_run (line : k.line) : Run k moved s (requeueSending s) := by
  refine .single (.queue line ((oneDemand_length_le _).trans (by rw [List.length_map])) fun fits => ?_)
  refine transmitFits_back fits (fun e => ?_) fun e => ?_
  · split <;> exact ⟨rfl, rfl⟩
  · split
    · rfl
    · next idle => simpa using idle

theorem dequeueSending_run (line : k.line) : Run k moved s (dequeueSending s) :=
  .single (.queue line (List.filter_sublist.length_le) fun fits => fits.sublist List.filter_sublist)

theorem tellDropped_moves (e : TxEntry) (line : k.line) : Moves k s (tellDropped e s) := by
  unfold tellDropped
  split
  · exact pollSpoiled_moves _ (.inl line)
  · exact ownerDropped_moves e s line

theorem failAttempt_run (e : TxEntry) (line : k.line) : Run k moved s (failAttempt e s) := by
  unfold failAttempt
  split
  · exact fallOut_run.trans (requeueSending_run line)
  · have gone : Run k moved s (countRetryDrop (dequeueSending (fallOut s))) :=
      (fallOut_run.trans (dequeueSending_run line)).trans (floor_run rfl rfl rfl (.inl line) id)
    exact gone.trans ((trap_moves ..).trans (tellDropped_moves e line)).run

theorem attemptAbandoned_run (h : execAttemptAbandoned s = .next t) (v : k.line ∨ mutedAndSilent s) :
    Run k moved s t := by
  obtain rfl := Host.Outcome.next.inj h
  split
  · exact .refl
  · next e sends =>
    have line := line_of_sending sends v
    have stopped : Run k moved s (stopAtMismatch e.notice s) :=
      (floor_run (s := s) (f := (stopAtMismatch e.notice s).floor) rfl rfl rfl (.inl line) id).tail (.used _ _)
    exact stopped.trans (failAttempt_run e line)

theorem endSending_run (e : TxEntry) (line : k.line) : Run k moved s (endSending e s) :=
  (dequeueSending_run line).trans (floor_run rfl rfl rfl (.inl line) id)

theorem noticeSent_run (h : execNoticeSent s = .next t) (v : k.line ∨ mutedAndSilent s) : Run k moved s t := by
  obtain rfl := Host.Outcome.next.inj h
  split
  · exact .refl
  · next e sends =>
    have line := line_of_sending sends v
    have ended := endSending_run (moved := moved) (s := s) e line
    unfold tellSent
    split
    · exact ended.trans (floor_run rfl rfl rfl (.inl line) id)
    · split
      · exact ended.trans (handNotice_moves none line (by simp [Notice.kind])).run
      · exact ended.trans (claimSettles_moves _ _ line).run
    · exact ended

/-! ### The window of an own POLL -/

theorem readFirstWindow_moves {e : ClaimEntry} (slots : BitVec 32) (line : k.line)
    (found : claimOf s e.handle = some e) (polling : e.stage = .polling) : Moves k s (readFirstWindow e slots s) := by
  have other := notHeld_of_claimOf found (by simp [polling])
  unfold readFirstWindow
  split
  · exact pollSpoiled_moves _ (.inl line)
  · split
    · exact endClaim_moves _ _ line other
    · have tentative : Moves k s (mapClaim e.handle (fun e => { e with stage := .tentative, notice := .queued }) s) :=
        .single (.claim line (fun _ => ⟨rfl, rfl⟩) fun sound q hq held => absurd held (other sound q hq))
      exact tentative.trans (handNotice_moves _ line (by simp [Notice.kind]))

theorem readConfirmWindow_moves {e : ClaimEntry} (slots : BitVec 32) (line : k.line)
    (found : claimOf s e.handle = some e) (tentative : e.stage = .tentative) :
    Moves k s (readConfirmWindow e slots s) := by
  unfold readConfirmWindow
  split
  · exact yieldClaim_moves _ line (notHeld_of_claimOf found (by simp [tentative]))
  · split
    · exact pollSpoiled_moves _ (.inl line)
    · have granted : Moves k s (mapClaim e.handle (fun e => { e with stage := .held }) s) :=
        .single (.claim line (fun _ => ⟨rfl, rfl⟩) fun _ _ _ _ => rfl)
      exact granted.trans (reportResult_moves ..)

theorem readWindow_moves (handle : Nat) (slots : BitVec 32) (line : k.line) :
    Moves k s (readWindow handle slots s) := by
  unfold readWindow
  split
  · exact .refl
  · next e found =>
    have mine : e.handle = handle := by simpa using List.find?_some found
    rw [← mine] at found
    split
    · next polling => exact readFirstWindow_moves slots line found polling
    · next tentative => exact readConfirmWindow_moves slots line found tentative
    · exact .refl

theorem takeWindow_run {w : OwnWindow} (h : takeWindow s = some (w, t)) (v : k.line ∨ mutedAndSilent s) :
    Run k moved s t ∧ k.line := by
  unfold takeWindow at h
  split at h
  · next w window =>
    have line : k.line := v.resolve_right fun silent => by simp [silent.2.2.1] at window
    cases h
    exact ⟨floor_run rfl rfl rfl (.inl line) id, line⟩
  · split at h
    · cases h
    · next e sends =>
      have line := line_of_sending sends v
      split at h
      · cases h
        exact ⟨endSending_run e line, line⟩
      · cases h

theorem ownPollWindow_run (slots : BitVec 32) (h : execOwnPollWindow slots s = .next t)
    (v : k.line ∨ mutedAndSilent s) : Run k moved s t := by
  obtain rfl := Host.Outcome.next.inj h
  split
  · exact .refl
  · next w u taken =>
    obtain ⟨run, line⟩ := takeWindow_run taken v
    exact run.trans (readWindow_moves _ _ line).run

/-! ### The part's own timers -/

theorem settleTimerExpiry_run (resource : Nat) (h : execSettleTimerExpiry resource s = .next t)
    (v : k.line ∨ mutedAndSilent s) : Run k moved s t := by
  obtain rfl := Host.Outcome.next.inj h
  split
  · exact .refl
  · next e found =>
    have line := claim_of_silent v found
    split
    · have stopped : Moves k s (stopSettle e.handle s) := mapClaim_moves s line fun _ => ⟨rfl, rfl, rfl⟩
      exact (stopped.trans (pollSpoiled_moves _ (.inl line))).run
    · exact .refl

theorem listenInExpiry_run (h : execListenInExpiry s = .next t) (v : k.line ∨ mutedAndSilent s) (rises : moved) :
    Run k moved s t := by
  obtain rfl := Host.Outcome.next.inj h
  split
  · next ends =>
    have line : k.line := v.resolve_right fun silent => by simp [silent.1] at ends
    have handed : Moves k s (handNotice (ownHello s) none s) := handNotice_moves none line (by simp [ownHello, Notice.kind])
    have active := (handed.run (moved := moved)).tail (.floor
      (f := { (handNotice (ownHello s) none s).floor with attach := .active, listenIn := none }) rfl rfl (.inl line)
      (fun h none => ⟨(h none).1, rfl⟩) (.inl rises))
    have sent := sendDemand_moves (k := k) (s := { handNotice (ownHello s) none s with
      floor := { (handNotice (ownHello s) none s).floor with attach := .active, listenIn := none } }) (.inl line)
    exact active.trans (sent.trans (testThreshold_moves (.inl line))).run
  · exact .refl

theorem announceTimerExpiry_run (h : execAnnounceTimerExpiry s = .next t) (v : k.line ∨ mutedAndSilent s) :
    Run k moved s t := by
  obtain rfl := Host.Outcome.next.inj h
  split
  · exact (sweepStep_moves _ v).run
  · exact .refl

theorem demandRefreshExpiry_run (h : execDemandRefreshExpiry s = .next t) (v : k.line ∨ mutedAndSilent s) :
    Run k moved s t := by
  obtain rfl := Host.Outcome.next.inj h
  split
  · have stopped : Moves k s (stopRefresh s) := water_moves _ s
    exact (stopped.trans (sendDemand_moves (stopped.voice v))).run
  · exact .refl

theorem resumeDwellExpiry_run (h : execResumeDwellExpiry s = .next t) (ok : Allowed k s t) : Run k moved s t := by
  obtain rfl := Host.Outcome.next.inj h
  split
  · have stopped : Moves k s { s with water := { s.water with dwell := none } } := water_moves _ s
    exact ((stopped.trans (dwellEnded_moves (stopped.voice ok.voice) ok.slot)).trans (launchWrite_moves _)).run
  · exact .refl

theorem overrunExpiry_run (h : execOverrunExpiry s = .next t) (ok : Allowed k s t) : Run k moved s t := by
  obtain rfl := Host.Outcome.next.inj h
  split
  · have stopped : Moves k s { s with active := { s.active with overrun := none } } := active_moves _ s ok.slot
    split
    · exact (stopped.trans (stopRunning_moves _ _ (stopped.voice ok.voice) ok.slot)).run
    · exact stopped.run
  · exact .refl

theorem endUnreported_moves (o : Order) (slot : k.slot) : Moves k s (endUnreported o s) :=
  (trap_moves ..).trans (dropOrder_moves o _ slot)

theorem stopWaitExpiry_run (h : execStopWaitExpiry s = .next t) (ok : Allowed k s t) : Run k moved s t := by
  have live := ok.live
  obtain rfl := Host.Outcome.next.inj h
  split
  · next runs =>
    rw [if_pos runs] at live
    split
    · exact (active_moves _ s ok.slot).run
    · next o order =>
      have ended := endUnreported_moves (s := s) o ok.slot
      simp only [order] at live ⊢
      by_cases ending : s.active.state = .ending
      · rw [if_pos ending] at live ⊢
        rw [planLive_launchWrite] at live
        exact ((ended.trans (abortPlan_ends_moves _ (ended.voice ok.voice) ok.slot live)).trans (launchWrite_moves _)).run
      · rw [if_neg ending]
        exact ended.run
  · exact .refl

theorem purgeTimerExpiry_run (h : execPurgeTimerExpiry s = .next t) (v : k.line ∨ mutedAndSilent s) :
    Run k moved s t := by
  obtain rfl := Host.Outcome.next.inj h
  split
  · have stopped : Moves k s { s with sump := { s.sump with purge := none } } := sump_moves _ s
    have released := stopped.trans (releaseClaim_moves (resource := ownPress s) (stopped.voice v) (letsGo_of_press _))
    exact ((released.trans (trap_moves ..)).trans (pressRetry_moves _)).run
  · exact .refl

theorem retryTimerExpiry_run (h : execRetryTimerExpiry s = .next t) (v : k.line ∨ mutedAndSilent s) :
    Run k moved s t := by
  obtain rfl := Host.Outcome.next.inj h
  split
  · have stopped : Moves k s { s with sump := { s.sump with retry := none } } := sump_moves _ s
    simp only
    split
    · exact (stopped.trans (wantPress_moves (stopped.voice v))).run
    · exact (stopped.trans (pressIdle_moves _)).run
  · exact .refl

theorem peerLapse_run (station : Nat) (h : execPeerLapse station s = .next t) (slot : k.slot) : Run k moved s t := by
  obtain rfl := Host.Outcome.next.inj h
  simp only
  split
  · exact ((setPeer_moves ..).trans (recomputeWater_moves (.inl slot))).run
  · exact .refl

theorem peerAbsent_run (station : Nat) (h : execPeerAbsent station s = .next t) (slot : k.slot) : Run k moved s t := by
  obtain rfl := Host.Outcome.next.inj h
  simp only
  split
  · exact ((setPeer_moves ..).trans (recomputeWater_moves (.inl slot))).run
  · exact .refl

/-! ### Plain lines and the store port -/

theorem meterPulse_run (meter : Meter) (h : execMeterPulse meter s = .next t) : Run k moved s t := by
  obtain rfl := Host.Outcome.next.inj h
  exact (water_moves _ s).run

/-- R131: a purge ended, as far as SUMP FULL is concerned. -/
def purgeReported (s : State) : State :=
  let t := queueWrite .sump { s with sump := { s.sump with
    purge := none, volume := s.sump.volume - s.sump.snapshot } }
  let u := releaseClaim (ownPress t) t
  report (.purgeReport u.settings.cfg.press u.sump.snapshot u.sump.volume (purgeElapsed s)) u

theorem endPurge_eq (s : State) : endPurge s = testThreshold (pressIdle
    (if s.settings.cfg.hardLimit ≤ s.sump.volume ∧
        (purgeReported s).sump.volume < (purgeReported s).settings.cfg.hardLimit then sumpCleared (purgeReported s)
      else purgeReported s)) := rfl

theorem purgeReported_moves (v : k.line ∨ mutedAndSilent s) : Moves k s (purgeReported s) := by
  have emptied := (sump_moves (k := k) { s.sump with purge := none, volume := s.sump.volume - s.sump.snapshot } s).trans
    (queueWrite_moves .sump _)
  exact (emptied.trans (releaseClaim_moves (emptied.voice v) (letsGo_of_press _))).trans (report_moves ..)

theorem endPurge_moves (v : k.line ∨ mutedAndSilent s) (slot : k.slot) : Moves k s (endPurge s) := by
  have reported := purgeReported_moves v
  rw [endPurge_eq]
  have cleared := (reported.thenIf (c := s.settings.cfg.hardLimit ≤ s.sump.volume ∧
    (purgeReported s).sump.volume < (purgeReported s).settings.cfg.hardLimit)
    (sumpCleared_moves (reported.voice v) slot)).trans (pressIdle_moves _)
  exact cleared.trans (testThreshold_moves (cleared.voice v))

theorem pressDone_run (h : execPressDone s = .next t) (ok : Allowed k s t) : Run k moved s t := by
  obtain rfl := Host.Outcome.next.inj h
  split
  · exact ((endPurge_moves ok.voice ok.slot).trans (launchWrite_moves _)).run
  · exact .refl

end Run

end Sys2Proof.Machine

namespace Sys2Proof.Machine

open Sys2Proof Sys2Proof.Safety Relation

section Store

/-! ### The store port -/

theorem copyHolds_erased : copyHolds (erasedPlace 63) := by
  intro _ j found
  have zero : u16At (erasedPlace 63) 0 = 0 := by rfl
  simp [jobOfBytes, zero] at found

theorem copyHolds_nil : copyHolds [] := fun good => by simp [goodCheck] at good

theorem copyHolds_bad {bytes : List Byte} (bad : goodCheck bytes = false) : copyHolds bytes :=
  fun good => by simp [bad] at good

/-- R179: what is left of a place holds if the copy before and the bytes written do. -/
theorem copyHolds_leftBytes {before written : List Byte} (use : Nat) (hb : copyHolds before) (hw : copyHolds written) :
    copyHolds (leftBytes use before written) := by
  obtain h | h | ⟨-, bad⟩ := leftBytes_cases use before written
  · rwa [h]
  · rwa [h]
  · exact copyHolds_bad bad

theorem copyHolds_getD {copies : List (List Byte)} (h : ∀ bytes ∈ copies, copyHolds bytes) (i : Nat) :
    copyHolds (copies.getD i []) := by
  rw [List.getD_eq_getElem?_getD]
  cases found : copies[i]? with
  | none => exact copyHolds_nil
  | some bytes => exact h bytes (List.mem_of_getElem? found)

theorem copies_set {copies : List (List Byte)} (h : ∀ bytes ∈ copies, copyHolds bytes) (i : Nat) {new : List Byte}
    (good : copyHolds new) : ∀ bytes ∈ copies.set i new, copyHolds bytes := by
  intro bytes mem
  obtain old | rfl := List.mem_or_eq_of_mem_set mem
  · exact h bytes old
  · exact good

/-- The places of the store, but for what they hold. -/
def sameShape (a b : Store) : Prop :=
  b.queue = a.queue ∧ b.slabs.length = a.slabs.length ∧ b.jobs.length = a.jobs.length

theorem put_sameShape (st : Store) (p : StorePlace) (bytes : List Byte) : sameShape st (st.put p bytes) := by
  cases p <;> simp [sameShape, Store.put]

theorem eraseFirst_sameShape (st : Store) (n : Nat) : sameShape st (st.eraseFirst n) := by
  simp [sameShape, Store.eraseFirst]

theorem sameShape.trans {a b c : Store} (h : sameShape a b) (h' : sameShape b c) : sameShape a c :=
  ⟨h'.1.trans h.1, h'.2.1.trans h.2.1, h'.2.2.trans h.2.2⟩

theorem complete_sameShape (st : Store) (w : StoreWrite) : sameShape st (st.complete w) := by
  unfold Store.complete
  split
  · exact eraseFirst_sameShape st 88
  · exact put_sameShape st _ _

theorem leave_sameShape (st : Store) (use : Nat) (w : StoreWrite) : sameShape st (st.leave use w) := by
  unfold Store.leave
  split
  · simp only
    split
    · exact (eraseFirst_sameShape st _).trans (put_sameShape ..)
    · exact (eraseFirst_sameShape st _).trans (put_sameShape ..)
  · exact put_sameShape ..

theorem put_copies {st : Store} (p : StorePlace) {bytes : List Byte} (h : ∀ b ∈ st.jobs, copyHolds b)
    (good : ∀ i, p = .job i → copyHolds bytes) : ∀ b ∈ (st.put p bytes).jobs, copyHolds b := by
  cases p with
  | job i => exact copies_set h i (good i rfl)
  | slab i => exact h
  | sump => exact h
  | serial => exact h
  | config => exact h
  | calibration => exact h
  | erase => exact h

theorem eraseFirst_copies {st : Store} (n : Nat) (h : ∀ b ∈ st.jobs, copyHolds b) :
    ∀ b ∈ (st.eraseFirst n).jobs, copyHolds b := by
  intro b mem
  obtain ⟨i, hi, rfl⟩ := List.mem_mapIdx.mp mem
  split
  · exact copyHolds_erased
  · exact h _ (List.getElem_mem hi)

theorem complete_copies {st : Store} {w : StoreWrite} (h : ∀ b ∈ st.jobs, copyHolds b)
    (good : ∀ i, w.place = .job i → copyHolds w.bytes) : ∀ b ∈ (st.complete w).jobs, copyHolds b := by
  unfold Store.complete
  split
  · exact eraseFirst_copies 88 h
  · exact put_copies _ h good

theorem leaveAt_copies {st : Store} (use : Nat) (p : StorePlace) {bytes : List Byte}
    (h : ∀ b ∈ st.jobs, copyHolds b) (good : ∀ i, p = .job i → copyHolds bytes) :
    ∀ b ∈ (st.leaveAt use p bytes).jobs, copyHolds b := by
  refine put_copies p h fun i isJob => ?_
  subst isJob
  exact copyHolds_leftBytes use (copyHolds_getD h i) (good i rfl)

theorem leave_copies {st : Store} (use : Nat) {w : StoreWrite} (h : ∀ b ∈ st.jobs, copyHolds b)
    (good : ∀ i, w.place = .job i → copyHolds w.bytes) : ∀ b ∈ (st.leave use w).jobs, copyHolds b := by
  unfold Store.leave
  split
  · simp only
    split
    · exact leaveAt_copies use _ (eraseFirst_copies _ h) fun _ other => by cases other
    · exact leaveAt_copies use _ (eraseFirst_copies _ h) fun _ _ => copyHolds_erased
  · exact leaveAt_copies use _ h good

section Run
variable {k : Scope} {moved : Prop} {s t : State}

theorem storeWriteDone_run (h : execStoreWriteDone s = .next t) : Run k moved s t := by
  obtain rfl := Host.Outcome.next.inj h
  split
  · exact .refl
  · next w inFlight =>
    have stored : Run k moved s { s with store := { s.store.complete w with inFlight := none } } := by
      obtain ⟨queue, slabs, jobs⟩ := complete_sameShape s.store w
      refine .single (.store ⟨queue, slabs, jobs, fun copies => ⟨?_, fun _ _ none => nomatch none⟩⟩)
      exact complete_copies copies.1 fun i job => copies.2 w i inFlight job
    exact stored.trans (launchWrite_moves _).run

theorem storeWriteTimeout_run (h : execStoreWriteTimeout s = .next t) : Run k moved s t := by
  obtain rfl := Host.Outcome.next.inj h
  split
  · exact .refl
  · next w inFlight =>
    have stored : Run k moved s { s with
        store := { s.store.leave s.freeUses w with inFlight := none, faults := bump16 s.store.faults } } := by
      obtain ⟨queue, slabs, jobs⟩ := leave_sameShape s.store s.freeUses w
      refine .single (.store ⟨queue, slabs, jobs, fun copies => ⟨?_, fun _ _ none => nomatch none⟩⟩)
      exact leave_copies _ copies.1 fun i job => copies.2 w i inFlight job
    exact (stored.tail (.used (s.freeUses + 1) _)).trans (launchWrite_moves _).run

/-! ### The part's own clock -/

theorem tick_run (slot : k.slot) : Run k moved s (tick s) := by
  have floor : Run k moved s { s with floor := { s.floor with listenIn := tickTimer s.floor.listenIn } } :=
    floor_run rfl rfl rfl (.inr ⟨rfl, rfl, rfl, .inl rfl⟩) id
  have peers := floor.tail (.move (.peers (ps := s.peers.map tickPeer) (by simp)))
  have register := peers.tail (.move (.counts s.register.serial s.register.heard s.register.discarded
    s.register.refused (s.register.sweep.map tickSweep) _))
  have claims := register.tail (.settles (f := tickClaim) fun _ => ⟨rfl, rfl, rfl⟩)
  have active := claims.tail (.move (.active { s.active with
    overrun := tickTimer s.active.overrun, stopWait := tickTimer s.active.stopWait } _ slot))
  have water := active.tail (.move (.water { s.water with
    dwell := tickTimer s.water.dwell, refresh := tickTimer s.water.refresh } _))
  have sump := water.tail (.move (.sump { s.sump with
    purge := tickTimer s.sump.purge, retry := tickTimer s.sump.retry } _))
  refine sump.tail (.store (st := { s.store with inFlight := s.store.inFlight.map tickWrite })
    ⟨rfl, rfl, rfl, fun copies => ⟨copies.1, ?_⟩⟩)
  intro w i inFlight job
  obtain ⟨v, old, rfl⟩ := Option.map_eq_some_iff.mp inFlight
  exact copies.2 v i old job

end Run

end Store

end Sys2Proof.Machine

namespace Sys2Proof.Machine

open Sys2Proof Sys2Proof.Safety Relation

/-- R163, R166, R179: a command that may move the attach state. -/
def movesAttach (c : Instr) (s : State) : Prop :=
  isReset c = true ∨ c = .join ∨ c = .listenInExpiry ∨
    ∃ k, sender c = some k ∧ some k = s.station.number ∧ detectorArmed s = true

section Run
variable {k : Scope} {moved : Prop} {s t : State}

/-- A host command whose run is made of the changes of operations. -/
theorem takeCommand_moves {straps : Nat} {c : Instr} {run : State → State}
    (h : takeCommand straps c run s = .next t) (ok : Allowed k s t)
    (runs : ∀ u, Allowed k u (run u) → Moves k u (run u)) : Run k moved s t :=
  takeCommand_run h ok fun u allowed => (runs u allowed).run

/-- A notice heard, whose owner's part is made of the changes of operations. -/
theorem heard_run (kind station : Nat) (demand : Option Nat) {owner : State → State}
    (h : (.next (hearNotice kind station demand owner s) : Host.Outcome State Fault Refusal) = .next t)
    (ok : Allowed k s t) (attach : some station = s.station.number → detectorArmed s = true → moved)
    (owners : ∀ u, (k.line ∨ mutedAndSilent u) → Moves k u (owner u)) : Run k moved s t := by
  obtain rfl := Host.Outcome.next.inj h
  exact hearNotice_run kind station demand ok attach fun u v _ => (owners u v).run

/-- What every command does: a run of changes. -/
theorem exec_run {c : Instr} (h : exec c s = .next t) (ok : Allowed k s t)
    (resets : isReset c = true → k.line ∧ k.kept = none) (attach : movesAttach c s → moved) : Run k moved s t := by
  have hears {station : Nat} (bears : sender c = some station) (same : some station = s.station.number)
      (armed : detectorArmed s = true) : moved := attach (.inr (.inr (.inr ⟨station, bears, same, armed⟩)))
  have v := ok.voice
  cases c with
  | pinReset straps =>
    obtain rfl := Host.Outcome.next.inj h
    obtain ⟨line, none⟩ := resets rfl
    exact .single (.started _ _ line ok.slot none (attach (.inl rfl)))
  | restart straps =>
    obtain rfl := Host.Outcome.next.inj h
    obtain ⟨line, none⟩ := resets rfl
    split
    · exact .single (.started _ _ line ok.slot none (attach (.inl rfl)))
    · exact .refl
  | transactionStart => exact transactionStart_run h
  | inboundFrame kind body taken => exact inboundFrame_run kind body taken h
  | malformedFrame => exact malformedFrame_run h
  | selectInactive cut => exact selectInactive_run cut h
  | outboundFrameRead => exact outboundFrameRead_run h
  | startUpEnd => exact startUpEnd_run h
  | readMarker => exact readMarker_run h
  | frameReadBegun => exact frameReadBegun_run h
  | enterSlab => exact takeCommand_moves h ok fun _ ok => runEnterSlab_moves _ ok.voice
  | readSlab slab => exact takeCommand_moves h ok fun _ _ => runReadSlab_moves slab
  | listSlabs start => exact takeCommand_moves h ok fun _ _ => runListSlabs_moves start
  | take slab job => exact takeCommand_moves h ok fun _ ok => runTake_moves slab job ok.voice
  | give slab => exact takeCommand_moves h ok fun _ ok => runGive_moves slab ok.voice ok.kept
  | planHead plan slab => exact takeCommand_moves h ok fun _ _ => runPlanHead_moves plan slab
  | planPieces pieces => exact takeCommand_moves h ok fun _ _ => loadFrame_moves _ _ fun _ => rfl
  | planRemnants remnants => exact takeCommand_moves h ok fun _ _ => loadFrame_moves _ _ fun _ => rfl
  | planSegments segments => exact takeCommand_moves h ok fun _ _ => loadFrame_moves _ _ fun _ => rfl
  | planEnd => exact takeCommand_moves h ok fun _ _ => runPlanEnd_moves
  | dropPlan => exact takeCommand_moves h ok fun _ _ => runDropPlan_moves
  | startPlan => exact takeCommand_moves h ok fun _ ok => runStartPlan_moves ok.voice ok.slot
  | abortPlan => exact takeCommand_moves h ok fun _ ok => runAbortPlan_moves ok.voice ok.slot ok.live
  | continuePlan => exact takeCommand_moves h ok fun _ ok => runContinue_moves ok.voice ok.slot
  | segmentDone tag length time =>
    exact takeCommand_moves h ok fun _ ok => runSegmentDone_moves tag length time ok.voice ok.slot ok.live
  | segmentPaused tag length time =>
    exact takeCommand_moves h ok fun _ ok => runSegmentPaused_moves tag length time ok.voice ok.slot ok.live
  | segmentFault tag cause length time =>
    exact takeCommand_moves h ok fun _ ok => runSegmentFault_moves tag cause length time ok.voice ok.slot ok.live
  | closeSlab slab mode job =>
    exact takeCommand_moves h ok fun _ ok => runCloseSlab_moves slab mode job ok.voice ok.slot
  | openJob job estimate => exact takeCommand_moves h ok fun _ _ => runOpenJob_moves job estimate
  | closeJob job => exact takeCommand_moves h ok fun _ _ => runCloseJob_moves job
  | freeJob job => exact takeCommand_moves h ok fun _ _ => runFreeJob_moves job
  | readJob job => exact takeCommand_moves h ok fun _ _ => runReadJob_moves job
  | purgeNow => exact takeCommand_moves h ok fun _ ok => runPurgeNow_moves ok.voice
  | join => exact takeCommand_run h ok fun _ ok => runJoin_run ok.voice (attach (.inr (.inl rfl)))
  | readStation => exact takeCommand_moves h ok fun _ _ => runReadStation_moves
  | readPeers => exact takeCommand_moves h ok fun _ _ => runReadPeers_moves
  | setStation first second number => exact takeCommand_run h ok fun _ _ => runSetStation_run first second number
  | writeConfig fields => exact takeCommand_moves h ok fun _ _ => runWriteConfig_moves fields
  | writeCalibration kRecycled kFresh =>
    exact takeCommand_moves h ok fun _ _ => runWriteCalibration_moves kRecycled kFresh
  | storeErase => exact takeCommand_run h ok fun _ ok => runStoreErase_run ok.none_of_inactive
  | pollReceived station resource =>
    obtain rfl := Host.Outcome.next.inj h
    exact hearNotice_run 1 station none ok (hears rfl) fun u v inStep => answerPoll_run _ resource v inStep
  | claimReceived station resource job =>
    exact heard_run 2 station none h ok (hears rfl) fun _ v => onClaim_moves station resource v
  | releaseReceived station resource =>
    exact heard_run 3 station none h ok (hears rfl) fun u _ => onRelease_moves station resource u
  | demandReceived station demand => exact heard_run 4 station (some demand) h ok (hears rfl) fun _ _ => .refl
  | retireReceived station slab reason =>
    exact heard_run 5 station none h ok (hears rfl) fun _ v => onRetire_moves slab v ok.slot
  | slabReceived station slab contents =>
    exact heard_run 6 station none h ok (hears rfl) fun u _ => onSlab_moves slab contents u
  | helloReceived station supply rate press =>
    exact heard_run 7 station none h ok (hears rfl) fun u _ => onHello_moves station ⟨supply, rate, press⟩ u
  | checkError kind station resource => exact checkError_run kind station resource h v
  | formatError kind station resource => exact formatError_run kind station resource h v
  | lossOfStep => exact lossOfStep_run h v
  | stuckLine => exact stuckLine_run h v
  | receiverResync => exact receiverResync_run h
  | transmitAttempt => exact transmitAttempt_run h v
  | attemptAbandoned => exact attemptAbandoned_run h v
  | noticeSent => exact noticeSent_run h v
  | ownPollWindow slots => exact ownPollWindow_run slots h v
  | settleTimerExpiry resource => exact settleTimerExpiry_run resource h v
  | listenInExpiry => exact listenInExpiry_run h v (attach (.inr (.inr (.inl rfl))))
  | announceTimerExpiry => exact announceTimerExpiry_run h v
  | demandRefreshExpiry => exact demandRefreshExpiry_run h v
  | resumeDwellExpiry => exact resumeDwellExpiry_run h ok
  | overrunExpiry => exact overrunExpiry_run h ok
  | stopWaitExpiry => exact stopWaitExpiry_run h ok
  | purgeTimerExpiry => exact purgeTimerExpiry_run h v
  | retryTimerExpiry => exact retryTimerExpiry_run h v
  | peerLapse station => exact peerLapse_run station h ok.slot
  | peerAbsent station => exact peerAbsent_run station h ok.slot
  | meterPulse meter => exact meterPulse_run meter h
  | pressDone => exact pressDone_run h ok
  | storeWriteDone => exact storeWriteDone_run h
  | storeWriteTimeout => exact storeWriteTimeout_run h

/-- A command as the changes it makes, whatever they touch. -/
theorem exec_run_all {c : Instr} (h : exec c s = .next t) : Run Scope.all True s t :=
  exec_run h ⟨.inl trivial, trivial, .inl rfl⟩ (fun _ => ⟨trivial, rfl⟩) fun _ => trivial

/-- A step takes the command at the front, one of the expiries due, or passes a millisecond. -/
theorem step_cases (h : step s = .next t) :
    (∃ c rest, s.pending = c :: rest ∧ exec c { s with pending := rest } = .next t) ∨
    (∃ c, exec c { s with freeUses := s.freeUses + 1 } = .next t ∧ c ∈ dueCommands s) ∨ t = tick s := by
  unfold step at h
  split at h
  · next c rest pending => exact .inl ⟨c, rest, pending, h⟩
  · unfold idle at h
    split at h
    · next c chosen =>
      refine .inr (.inl ⟨c, h, ?_⟩)
      exact List.mem_of_getElem? chosen
    · exact .inr (.inr (Host.Outcome.next.inj h).symm)

/-- What every command and the clock keep, of the parts the queue of commands and the free values are not of, a step keeps. -/
theorem step_keeps {keeps : State → Prop} (pending : ∀ s rest, keeps s → keeps { s with pending := rest })
    (free : ∀ s n, keeps s → keeps { s with freeUses := n })
    (run : ∀ s t, Run Scope.all True s t → keeps s → keeps t) (holds : keeps s) (h : step s = .next t) : keeps t := by
  obtain ⟨c, rest, -, ran⟩ | ⟨c, ran, -⟩ | rfl := step_cases h
  · exact run _ _ (exec_run_all ran) (pending s rest holds)
  · exact run _ _ (exec_run_all ran) (free s _ holds)
  · exact run _ _ (tick_run trivial) holds

end Run

end Sys2Proof.Machine

/-! PROOF. What every command leaves alone: the queue of waiting commands (O2), a muted station (O13), the attach state
(O14). -/

namespace Sys2Proof.Machine

open Sys2Proof Sys2Proof.Safety Relation

section Run
variable {k : Scope} {moved : Prop} {s t : State}

theorem startUp_pending (x : Station) (s : State) : (startUp x s).pending = s.pending := by simp [startUp]

theorem startUp_floor (x : Station) (s : State) : (startUp x s).floor = Floor.reset := by simp [startUp]

theorem Run.pending (h : Run k moved s t) : t.pending = s.pending := by
  induction h with
  | refl => rfl
  | tail _ change ih =>
    refine Eq.trans ?_ ih
    cases change with
    | move m => exact m.sameControl.1
    | started x _ _ _ _ _ => exact startUp_pending x _
    | _ => rfl

/-- Every command goes on to a next state. -/
theorem exec_next (c : Instr) (s : State) : ∃ t, exec c s = .next t := by
  cases c <;> exact ⟨_, rfl⟩

/-- R156, R163: slots stay driven in step and in ACTIVE alone. -/
theorem Run.driven (h : Run k moved s t) (drives : driven s.floor) : driven t.floor := by
  induction h with
  | refl => exact drives
  | tail _ change ih =>
    cases change with
    | move m =>
      obtain ⟨-, -, -, -, attach, inStep, -, -, drive, -⟩ := m.sameControl
      rw [Machine.driven, drive, inStep, attach]
      exact ih
    | floor _ _ _ keeps _ => exact keeps ih
    | started x _ _ _ _ _ =>
      rw [startUp_floor]
      exact fun none => absurd rfl none
    | _ => exact ih

/-- R163, R166: what a run that hands no notice leaves of a muted, silent controller. -/
theorem Run.silent (h : Run k moved s t) (quiet : ¬ k.line) :
    t.floor.lineOut = s.floor.lineOut ∧ (t.floor.drive = s.floor.drive ∨ t.floor.drive = none) := by
  induction h with
  | refl => exact ⟨rfl, .inl rfl⟩
  | tail _ change ih =>
    obtain ⟨lineOut, drive⟩ := ih
    cases change with
    | move m =>
      rw [(m.sameLine quiet).1]
      exact ⟨lineOut, drive⟩
    | floor _ _ still _ _ =>
      obtain ⟨-, -, lineOut', drive'⟩ := still.resolve_left quiet
      refine ⟨lineOut'.trans lineOut, ?_⟩
      obtain same | none := drive'
      · rw [same]
        exact drive
      · exact .inr none
    | queue line => exact absurd line quiet
    | started _ _ line => exact absurd line quiet
    | _ => exact ⟨lineOut, drive⟩

/-! ### The attach state -/

theorem takeCommand_cases {straps : Nat} {c : Instr} {run : State → State} (h : takeCommand straps c run s = .next t) :
    t = s ∨ t = launchWrite (run (popInbound s)) := by
  obtain rfl := Host.Outcome.next.inj h
  split
  · exact .inr rfl
  · exact .inl rfl

theorem goActive_attach (s : State) : (goActive s).floor.attach = .active := by
  have sent := sendDemand_moves (k := Scope.all) (s := { handNotice (ownHello s) none s with
      floor := { (handNotice (ownHello s) none s).floor with attach := .active, listenIn := none } }) (.inl trivial)
  exact (sent.trans (testThreshold_moves (.inl trivial))).attach

theorem muteStation_attach (s : State) : (muteStation s).floor.attach = .muted := by
  have after : Moves Scope.all (muteFloor s) (muteStation s) :=
    (((muteClaims_moves trivial rfl).trans (mutePlan_moves (.inl trivial) trivial rfl)).trans (water_moves _ _)).trans
      (muteSump_moves.trans (trap_moves ..))
  exact after.attach

/-- R166: a notice bearing the station's own number while the detector is armed. -/
theorem hearNotice_muted {kind station : Nat} {demand : Option Nat} {owner : State → State}
    (own : some station = s.station.number) (armed : detectorArmed s = true)
    (h : (.next (hearNotice kind station demand owner s) : Host.Outcome State Fault Refusal) = .next t) :
    t.floor.attach = s.floor.attach ∨ t.floor.attach = .muted := by
  obtain rfl := Host.Outcome.next.inj h
  unfold hearNotice
  split
  · exact .inl rfl
  · simp only [own.symm, if_true, launchWrite_floor]
    exact .inr (muteStation_attach _)

/-- The notices that bear a sender. -/
theorem exec_of_sender {c : Instr} {station : Nat} (bears : sender c = some station) :
    ∃ kind demand, ∃ owner : State → State → State, ∀ s, exec c s = .next (hearNotice kind station demand (owner s) s) := by
  unfold sender at bears
  split at bears <;> cases bears <;> exact ⟨_, _, fun _ => _, fun _ => rfl⟩

theorem restart_attach {straps : Nat} (h : exec (.restart straps) s = .next t) :
    t.floor.attach = s.floor.attach ∨ t.floor.attach = .inert := by
  obtain rfl := Host.Outcome.next.inj h
  split
  · exact .inr (by rw [startUp_floor]; rfl)
  · exact .inl rfl

theorem join_attach (h : exec .join s = .next t) :
    t.floor.attach = s.floor.attach ∨ (s.floor.attach = .inert ∧ t.floor.attach = .listening) := by
  obtain rfl | rfl := takeCommand_cases h
  · exact .inl rfl
  · rw [launchWrite_floor]
    unfold runJoin
    split
    · exact .inl (by simp [refuse])
    · next joins => exact .inr ⟨by simpa using (not_or.mp joins).1, rfl⟩

theorem listenInExpiry_attach (h : exec .listenInExpiry s = .next t) :
    t.floor.attach = s.floor.attach ∨ (s.floor.attach = .listening ∧ t.floor.attach = .active) := by
  obtain rfl := Host.Outcome.next.inj h
  split
  · next ends => exact .inr ⟨ends.2, goActive_attach s⟩
  · exact .inl rfl

end Run

end Sys2Proof.Machine

namespace Sys2Proof.Proofs

open Sys2Proof Sys2Proof.Machine Sys2Proof.Safety

/-- Settles O1: it is the first case of the step. -/
theorem stepRunsTheFrontCommand : Obligations.StepRunsTheFrontCommand := by
  intro s c rest pending
  unfold step
  rw [pending]

/-- Settles O2: a command is a run of changes, none of which touches the queue. -/
theorem everyCommandGoesOn : Obligations.EveryCommandGoesOn := by
  intro c s
  obtain ⟨t, ran⟩ := exec_next c s
  exact ⟨t, ran, (exec_run_all ran).pending⟩

/-- Settles O13: a muted station's commands are runs that hand no notice; every change keeps slots driven in step. -/
theorem mutedStationStaysSilent : Obligations.MutedStationStaysSilent := by
  refine ⟨fun c s t silent other ran => ?_, fun s t drives stepped => ?_⟩
  · have run : Run ⟨True, False, none⟩ True s t :=
      exec_run ran ⟨.inr silent, trivial, .inl rfl⟩ (fun reset => by simp [other] at reset) fun _ => trivial
    exact ⟨(run.voice (.inr silent)).resolve_left id, run.silent id⟩
  · exact step_keeps (keeps := drivesInStep) (fun _ _ h => h) (fun _ _ h => h) (fun _ _ run h => run.driven h)
      drives stepped

/-- Settles O14: but for the commands named, no change moves the attach state. -/
theorem attachStateMovesOnlySo : Obligations.AttachStateMovesOnlySo := by
  intro c s t ran
  by_cases moves : movesAttach c s
  · obtain reset | rfl | rfl | ⟨k, bears, own, armed⟩ := moves
    · cases c <;> cases reset
      · next straps =>
        refine .inr (.inl ⟨rfl, ?_⟩)
        obtain rfl := Host.Outcome.next.inj ran
        rw [startUp_floor]
        rfl
      · exact (restart_attach ran).imp_right fun inert => .inl ⟨rfl, inert⟩
    · exact (join_attach ran).imp_right fun h => .inr (.inl ⟨rfl, h⟩)
    · exact (listenInExpiry_attach ran).imp_right fun h => .inr (.inr (.inl ⟨rfl, h⟩))
    · obtain ⟨kind, demand, owner, hears⟩ := exec_of_sender bears
      rw [hears] at ran
      refine (hearNotice_muted own armed ran).imp_right fun muted => .inr (.inr (.inr ⟨bears.trans own, ?_, ?_, muted⟩))
      · rw [← own]
        rfl
      · simpa [detectorArmed] using armed
  · exact .inl (exec_run ran ⟨.inl trivial, trivial, .inl rfl⟩ (fun _ => ⟨trivial, rfl⟩) moves : Run Scope.all False s t).sameAttach

end Sys2Proof.Proofs

/-! PROOF. The claim table (O9), the store write queue (O10) and the queues kept for others (O7). -/

namespace Sys2Proof.Machine

open Sys2Proof Sys2Proof.Safety Relation

section Keeps
variable {k : Scope} {moved : Prop} {s t : State}

/-! ### The claim table -/

theorem Move.claimsSound (h : Move k s t) (sound : claimsSound s) : claimsSound t := by
  cases h with
  | claim _ keeps _ => exact (claimsSound_mapClaim_iff keeps _ s).mpr sound
  | unclaim =>
    obtain ⟨few, resources, handles, below⟩ := sound
    rename_i h _ _
    have sub : (s.claims.entries.filter (·.handle != h)).Sublist s.claims.entries := List.filter_sublist
    exact ⟨sub.length_le.trans few, resources.sublist (sub.map _), handles.sublist (sub.map _),
      fun e he => below e (sub.subset he)⟩
  | newClaim purpose _ free room =>
    rename_i resource _
    obtain ⟨few, resources, handles, below⟩ := sound
    have other (e : ClaimEntry) (he : e ∈ s.claims.entries) : e.resource ≠ resource := by
      simpa using List.find?_eq_none.mp free e he
    refine ⟨by simpa using room, ?_, ?_, ?_⟩
    · rw [List.map_append, List.nodup_append]
      refine ⟨resources, by simp, fun a ha b hb => ?_⟩
      obtain ⟨e, he, rfl⟩ := List.mem_map.mp ha
      obtain rfl : b = resource := by simpa using hb
      exact other e he
    · rw [List.map_append, List.nodup_append]
      refine ⟨handles, by simp, fun a ha b hb => ?_⟩
      obtain ⟨e, he, rfl⟩ := List.mem_map.mp ha
      obtain rfl : b = s.claims.nextHandle := by simpa using hb
      exact (below e he).ne
    · simp only [List.mem_append, List.mem_singleton]
      rintro e (he | rfl)
      · exact (below e he).trans (Nat.lt_succ_self _)
      · exact Nat.lt_succ_self _
  | heardSlab c _ room =>
    have frame := makeRoom_frame room
    rw [frame]
    simpa [Safety.claimsSound] using sound
  | enteredSlab c room =>
    have frame := makeRoom_frame room
    rw [frame]
    simpa [Safety.claimsSound] using sound
  | reserve room =>
    rw [reserve_frame room]
    exact sound
  | _ => simpa [makeRemnant, Safety.claimsSound] using sound

theorem startUp_claims (x : Station) (s : State) : (startUp x s).claims = ClaimTable.reset := by simp [startUp]

theorem Run.claimsSound (h : Run k moved s t) (sound : claimsSound s) : claimsSound t := by
  induction h with
  | refl => exact sound
  | tail _ change ih =>
    cases change with
    | move m => exact m.claimsSound ih
    | settles keeps =>
      obtain ⟨few, resources, handles, below⟩ := ih
      have resource : (fun e : ClaimEntry => e.resource) ∘ _ = fun e : ClaimEntry => e.resource := funext fun e => (keeps e).2.1
      have handle : (fun e : ClaimEntry => e.handle) ∘ _ = fun e : ClaimEntry => e.handle := funext fun e => (keeps e).1
      refine ⟨by simpa using few, ?_, ?_, ?_⟩
      · simpa only [List.map_map, resource] using resources
      · simpa only [List.map_map, handle] using handles
      · simp only [List.forall_mem_map, keeps]
        exact below
    | started x _ _ _ _ _ =>
      rw [Safety.claimsSound, startUp_claims]
      simp [ClaimTable.reset]
    | _ => exact ih

/-! ### The store write queue -/

theorem storeSlab_writes (id : Nat) (distinct : writesDistinct s) : writesDistinct (storeSlab id s) := by
  unfold storeSlab
  cases slabPlace s id with
  | none => exact distinct
  | some i => exact queueWrite_nodup distinct

theorem removeSlab_writes (id : Nat) (distinct : writesDistinct s) : writesDistinct (removeSlab id s) :=
  storeSlab_writes id distinct

theorem makeSlab_writes (id : Nat) (c : SlabContents) (distinct : writesDistinct s) :
    writesDistinct (makeSlab id c s) := by
  unfold makeSlab
  simp only
  split
  · exact distinct
  · exact queueWrite_nodup distinct

theorem makeRoom_writes {u : State} (room : makeRoom s = some u) (distinct : writesDistinct s) : writesDistinct u := by
  unfold makeRoom at room
  split at room
  · obtain rfl := Option.some.inj room
    exact distinct
  · obtain ⟨r, -, rfl⟩ := Option.map_eq_some_iff.mp room
    exact removeSlab_writes r.id distinct

theorem evictUntil_writes (n fuel : Nat) (distinct : writesDistinct s) : writesDistinct (evictUntil n fuel s) := by
  induction fuel generalizing s with
  | zero => exact distinct
  | succ fuel ih =>
    unfold evictUntil
    split
    · exact distinct
    · split
      · exact ih (removeSlab_writes _ distinct)
      · exact distinct

theorem launchWrite_writes (distinct : writesDistinct s) : writesDistinct (launchWrite s) := by
  unfold launchWrite
  split
  · next p rest _ queue =>
    rw [writesDistinct, queue, List.nodup_cons] at distinct
    exact distinct.2
  · exact distinct

theorem Move.writesDistinct (h : Move k s t) (distinct : writesDistinct s) : writesDistinct t := by
  cases h with
  | write p => exact queueWrite_nodup distinct
  | launch => exact launchWrite_writes distinct
  | heardSlab c _ room => exact makeSlab_writes _ c (makeRoom_writes room distinct)
  | enteredSlab c room =>
    refine makeSlab_writes _ c (queueWrite_nodup ?_)
    simpa [acceptWith] using makeRoom_writes room distinct
  | remnant parent c r => exact makeSlab_writes _ _ (queueWrite_nodup distinct)
  | reserve room =>
    unfold Machine.reserve at room
    split at room
    · obtain rfl := Option.some.inj room
      exact evictUntil_writes _ _ distinct
    · cases room
  | _ => simpa [Safety.writesDistinct] using distinct

end Keeps

end Sys2Proof.Machine

/-! PROOF. What start-up recovers of the store (R184): each place as a function of the store's places. -/

namespace Sys2Proof.Machine

open Sys2Proof Sys2Proof.Safety

/-! ### Slabs -/

/-- R184: a stored CUTTING comes back CUT OPEN. -/
def slabBack (r : SlabRecord) : SlabRecord := { r with state := if r.state = .cutting then .cutOpen else r.state }

/-- R184: the place a stored slab copy comes back in, those before it being `stored`'s first `i`. -/
def slabAt (stored : List (List Byte)) (i : Nat) (bs : List Byte) : Option SlabRecord :=
  if goodCheck bs then ((slabOfBytes bs).filter fun r => !slabBefore stored i r.id).map slabBack else none

/-- R184: a stored slab place that is written again: a duplicate, or a record that was CUTTING. -/
def slabRewritten (stored : List (List Byte)) (i : Nat) : Bool :=
  let bs := stored.getD i []
  goodCheck bs && (slabOfBytes bs).any fun r => slabBefore stored i r.id || r.state == .cutting

theorem slabBefore_append {stored rest : List (List Byte)} {i : Nat} (h : i ≤ stored.length) (id : Nat) :
    slabBefore (stored ++ rest) i id = slabBefore stored i id := by
  rw [slabBefore, slabBefore, List.take_append_of_le_length h]

theorem slabAt_append {stored rest : List (List Byte)} {i : Nat} (h : i ≤ stored.length) (bs : List Byte) :
    slabAt (stored ++ rest) i bs = slabAt stored i bs := by simp only [slabAt, slabBefore_append h]

/-- A list of places worked out one by one, with one place more. -/
theorem mapIdx_concat_of_prefix {α β : Type} {f : List α → Nat → α → β}
    (keeps : ∀ l r i a, i ≤ l.length → f (l ++ r) i a = f l i a) (l : List α) (a : α) :
    (l ++ [a]).mapIdx (f (l ++ [a])) = l.mapIdx (f l) ++ [f l l.length a] := by
  rw [List.mapIdx_append]
  congr 1
  · refine List.ext_getElem (by simp) fun i h _ => ?_
    rw [List.getElem_mapIdx, List.getElem_mapIdx, keeps]
    exact le_of_lt (by simpa using h)
  · simp [keeps l [a] l.length a le_rfl]

/-- The indices of a list with one element more for which a test holds. -/
theorem filter_range_concat {α : Type} {p : List α → Nat → Bool}
    (keeps : ∀ l a i, i < l.length → p (l ++ [a]) i = p l i) (l : List α) (a : α) :
    (List.range (l ++ [a]).length).filter (p (l ++ [a])) =
      (List.range l.length).filter (p l) ++ (if p (l ++ [a]) l.length then [l.length] else []) := by
  rw [List.length_append, List.length_singleton, List.range_succ, List.filter_append]
  congr 1
  · exact List.filter_congr fun i h => keeps l a i (List.mem_range.mp h)
  · rw [List.filter_cons, List.filter_nil]

theorem getD_concat_of_lt {α : Type} {l : List α} {i : Nat} (h : i < l.length) (a d : α) :
    (l ++ [a]).getD i d = l.getD i d := by
  rw [List.getD_eq_getElem?_getD, List.getD_eq_getElem?_getD, List.getElem?_append_left h]

theorem getD_concat_length {α : Type} (l : List α) (a d : α) : (l ++ [a]).getD l.length d = a := by
  rw [List.getD_eq_getElem?_getD, List.getElem?_concat_length, Option.getD_some]

theorem slabRewritten_append (stored : List (List Byte)) (bs : List Byte) (i : Nat) (h : i < stored.length) :
    slabRewritten (stored ++ [bs]) i = slabRewritten stored i := by
  simp only [slabRewritten, getD_concat_of_lt h, slabBefore_append h.le]

theorem slabLeftOut_append (stored : List (List Byte)) (bs : List Byte) (i : Nat) (h : i < stored.length) :
    slabLeftOut (stored ++ [bs]) i = slabLeftOut stored i := by
  simp only [slabLeftOut, getD_concat_of_lt h, slabBefore_append h.le]

/-- R184: the ids restored are those of the good copies. -/
def slabIds (stored : List (List Byte)) (id : Nat) : Bool :=
  stored.any fun bs => goodCheck bs && (slabOfBytes bs).any (·.id == id)

theorem slabBefore_length (stored : List (List Byte)) (id : Nat) :
    slabBefore stored stored.length id = slabIds stored id := by
  rw [slabBefore, List.take_length, slabIds]

/-- R184: what recovery makes of the slab places. -/
theorem recoverSlabs_eq (stored : List (List Byte)) :
    recoverSlabs stored = ⟨stored.mapIdx (slabAt stored),
      ((List.range stored.length).filter (slabRewritten stored)).map .slab,
      ((List.range stored.length).filter (slabLeftOut stored)).length⟩ ∧
    ∀ id, ((stored.mapIdx (slabAt stored)).any fun o => o.any (·.id == id)) = slabIds stored id := by
  induction stored using List.reverseRecOn with
  | nil => exact ⟨rfl, fun _ => rfl⟩
  | append_singleton stored bs ih =>
    obtain ⟨recovered, ids⟩ := ih
    have places := mapIdx_concat_of_prefix (f := slabAt) (fun l r i a h => slabAt_append h a) stored bs
    have writes := filter_range_concat slabRewritten_append stored bs
    have left := filter_range_concat slabLeftOut_append stored bs
    have restored (id : Nat) := (ids id).trans (slabBefore_length stored id).symm
    have before (id : Nat) : slabBefore (stored ++ [bs]) stored.length id = slabBefore stored stored.length id :=
      slabBefore_append le_rfl id
    refine ⟨?_, fun id => ?_⟩
    · rw [recoverSlabs, List.foldl_append, ← recoverSlabs, recovered, places, writes, left]
      simp only [List.foldl_cons, List.foldl_nil, recoverSlab, slabRewritten, slabLeftOut, getD_concat_length, before,
        slabAt, restored]
      cases good : goodCheck bs with
      | false => simp [Recovery.add]
      | true =>
        cases found : slabOfBytes bs with
        | none => simp [Recovery.add]
        | some r =>
          cases old : slabBefore stored stored.length r.id with
          | true => simp [Recovery.add, old]
          | false =>
            by_cases cutting : r.state = .cutting
            · simp [Recovery.add, old, cutting, slabBack]
            · simp [Recovery.add, old, cutting, slabBack]
    · rw [places, List.any_append, ids]
      rw [slabIds, slabIds, List.any_append]
      simp only [List.any_cons, List.any_nil, Bool.or_false, slabAt]
      cases good : goodCheck bs with
      | false => simp
      | true =>
        cases found : slabOfBytes bs with
        | none => simp
        | some r =>
          cases old : slabBefore stored stored.length r.id with
          | false => simp [old, slabBack, Option.filter_some]
          | true =>
            by_cases same : r.id = id
            · subst same
              rw [slabBefore_length, slabIds] at old
              simp [old]
            · simp [old, same, Option.filter_some]

/-! ### Jobs -/

/-- R184: the place a good stored job copy comes back in; a bad one waits. -/
def goodJobAt (stored : List (List Byte)) (i : Nat) (bs : List Byte) : Option JobRecord :=
  if goodCheck bs then (jobOfBytes bs).filter fun j => !jobBefore stored i j.number else none

/-- R184: a stored job place that is a duplicate. -/
def jobRewritten (stored : List (List Byte)) (i : Nat) : Bool :=
  let bs := stored.getD i []
  goodCheck bs && (jobOfBytes bs).any fun j => jobBefore stored i j.number

/-- R184: the numbers restored are those of the good copies. -/
def jobNumbers (stored : List (List Byte)) (number : Nat) : Bool :=
  stored.any fun bs => goodCheck bs && (jobOfBytes bs).any (·.number == number)

theorem jobBefore_append {stored rest : List (List Byte)} {i : Nat} (h : i ≤ stored.length) (number : Nat) :
    jobBefore (stored ++ rest) i number = jobBefore stored i number := by
  rw [jobBefore, jobBefore, List.take_append_of_le_length h]

theorem jobBefore_length (stored : List (List Byte)) (number : Nat) :
    jobBefore stored stored.length number = jobNumbers stored number := by
  rw [jobBefore, List.take_length, jobNumbers]

theorem goodJobAt_append {stored rest : List (List Byte)} {i : Nat} (h : i ≤ stored.length) (bs : List Byte) :
    goodJobAt (stored ++ rest) i bs = goodJobAt stored i bs := by simp only [goodJobAt, jobBefore_append h]

theorem jobRewritten_append (stored : List (List Byte)) (bs : List Byte) (i : Nat) (h : i < stored.length) :
    jobRewritten (stored ++ [bs]) i = jobRewritten stored i := by
  simp only [jobRewritten, getD_concat_of_lt h, jobBefore_append h.le]

/-- R184: what the first pass makes of the job places. -/
theorem recoverGoodJobs_eq (stored : List (List Byte)) :
    stored.foldl recoverGoodJob ⟨[], [], 0⟩ = ⟨stored.mapIdx (goodJobAt stored),
      ((List.range stored.length).filter (jobRewritten stored)).map .job, 0⟩ ∧
    ∀ number, ((stored.mapIdx (goodJobAt stored)).any fun o => o.any (·.number == number)) =
      jobNumbers stored number := by
  induction stored using List.reverseRecOn with
  | nil => exact ⟨rfl, fun _ => rfl⟩
  | append_singleton stored bs ih =>
    obtain ⟨recovered, numbers⟩ := ih
    have places := mapIdx_concat_of_prefix (f := goodJobAt) (fun l r i a h => goodJobAt_append h a) stored bs
    have writes := filter_range_concat jobRewritten_append stored bs
    have restored (number : Nat) := (numbers number).trans (jobBefore_length stored number).symm
    have before (number : Nat) :
        jobBefore (stored ++ [bs]) stored.length number = jobBefore stored stored.length number :=
      jobBefore_append le_rfl number
    refine ⟨?_, fun number => ?_⟩
    · rw [List.foldl_append, recovered, places, writes]
      simp only [List.foldl_cons, List.foldl_nil, recoverGoodJob, jobRewritten, getD_concat_length, before,
        goodJobAt, restored]
      cases good : goodCheck bs with
      | false => simp [Recovery.add]
      | true =>
        cases found : jobOfBytes bs with
        | none => simp [Recovery.add]
        | some j =>
          cases old : jobBefore stored stored.length j.number with
          | true => simp [Recovery.add, old, Option.filter_some]
          | false => simp [Recovery.add, old, Option.filter_some]
    · rw [places, List.any_append, numbers]
      rw [jobNumbers, jobNumbers, List.any_append]
      simp only [List.any_cons, List.any_nil, Bool.or_false, goodJobAt]
      cases good : goodCheck bs with
      | false => simp
      | true =>
        cases found : jobOfBytes bs with
        | none => simp
        | some j =>
          cases old : jobBefore stored stored.length j.number with
          | false => simp [old, Option.filter_some]
          | true =>
            by_cases same : j.number = number
            · subst same
              rw [jobBefore_length, jobNumbers] at old
              simp [old]
            · simp [old, same, Option.filter_some]

/-- R151, R184: stored job place `i` comes back DAMAGED: its check is bad, and it names a number that no good copy and no
damaged copy before it has brought back. -/
def jobDamaged (stored : List (List Byte)) (i : Nat) : Bool :=
  let number := u16At (stored.getD i []) 0
  !goodCheck (stored.getD i []) && number != 0 && !jobNumbers stored number &&
    (List.range i).all fun k => goodCheck (stored.getD k []) || u16At (stored.getD k []) 0 != number

/-- R184: the place a stored job copy comes back in, the damaged ones judged before place `n`. -/
def jobAt (stored : List (List Byte)) (n i : Nat) (bs : List Byte) : Option JobRecord :=
  if i < n ∧ jobDamaged stored i = true then some (damagedJob (u16At bs 0)) else goodJobAt stored i bs

/-- R184: recovery of the job places with the damaged copies before place `n` judged. -/
def jobsUpTo (stored : List (List Byte)) (n : Nat) : Recovery JobRecord :=
  ⟨stored.mapIdx (jobAt stored n),
    ((List.range stored.length).filter (jobRewritten stored)).map .job ++
      ((List.range n).filter (jobDamaged stored)).map .job,
    ((List.range n).filter (jobDamaged stored)).length⟩

theorem jobAt_zero (stored : List (List Byte)) : stored.mapIdx (jobAt stored 0) = stored.mapIdx (goodJobAt stored) := rfl

theorem goodJobAt_of_bad {stored : List (List Byte)} {i : Nat} {bs : List Byte} (bad : goodCheck bs = false) :
    goodJobAt stored i bs = none := by simp [goodJobAt, bad]

theorem jobDamaged_bad {stored : List (List Byte)} {i : Nat} (h : jobDamaged stored i = true) :
    goodCheck (stored.getD i []) = false ∧ u16At (stored.getD i []) 0 ≠ 0 ∧
      jobNumbers stored (u16At (stored.getD i []) 0) = false := by
  simp only [jobDamaged, Bool.and_eq_true, Bool.not_eq_true', bne_iff_ne, ne_eq] at h
  exact ⟨h.1.1.1, h.1.1.2, h.1.2⟩

/-- R151: a damaged number is brought back by a good copy, or by the first damaged copy that names it. -/
theorem jobAt_any_number (stored : List (List Byte)) (n number : Nat) (some : number ≠ 0) (h : n ≤ stored.length) :
    ((stored.mapIdx (jobAt stored n)).any fun o => o.any (·.number == number)) = true ↔
      jobNumbers stored number = true ∨
        ∃ k < n, goodCheck (stored.getD k []) = false ∧ u16At (stored.getD k []) 0 = number := by
  have at_eq (i : Nat) (hi : i < stored.length) : stored.getD i [] = stored[i] := by simp [hi]
  constructor
  · intro found
    obtain ⟨o, mem, has⟩ := List.any_eq_true.mp found
    obtain ⟨i, hi, rfl⟩ := List.mem_mapIdx.mp mem
    unfold jobAt at has
    split at has
    · next damaged =>
      refine .inr ⟨i, damaged.1, (jobDamaged_bad damaged.2).1, ?_⟩
      rw [at_eq i hi]
      simpa [damagedJob] using has
    · refine .inl ?_
      rw [← (recoverGoodJobs_eq stored).2]
      exact List.any_eq_true.mpr ⟨_, List.mem_mapIdx.mpr ⟨i, hi, rfl⟩, has⟩
  · intro h'
    by_cases good : jobNumbers stored number = true
    · have found := good
      rw [← (recoverGoodJobs_eq stored).2] at found
      obtain ⟨o, mem, has⟩ := List.any_eq_true.mp found
      obtain ⟨i, hi, rfl⟩ := List.mem_mapIdx.mp mem
      refine List.any_eq_true.mpr ⟨_, List.mem_mapIdx.mpr ⟨i, hi, rfl⟩, ?_⟩
      unfold jobAt
      split
      · next damaged =>
        have bad := (jobDamaged_bad damaged.2).1
        rw [at_eq i hi] at bad
        simp [goodJobAt_of_bad bad] at has
      · exact has
    · have exists_bad := h'.resolve_left good
      have least := Nat.find_spec exists_bad
      obtain ⟨below, bad, named⟩ := least
      have inside : Nat.find exists_bad < stored.length := below.trans_le h
      have damaged : jobDamaged stored (Nat.find exists_bad) = true := by
        simp only [jobDamaged, bad, named, Bool.not_false, Bool.true_and, Bool.and_eq_true, bne_iff_ne, ne_eq,
          Bool.not_eq_true', List.all_eq_true, List.mem_range, Bool.or_eq_true]
        refine ⟨⟨some, by simpa using good⟩, fun k hk => ?_⟩
        by_contra other
        refine Nat.find_min exists_bad hk ⟨hk.trans below, ?_⟩
        simpa [not_or] using other
      refine List.any_eq_true.mpr ⟨_, List.mem_mapIdx.mpr ⟨_, inside, rfl⟩, ?_⟩
      rw [jobAt, if_pos ⟨below, damaged⟩]
      rw [at_eq _ inside] at named
      simpa [damagedJob] using named

/-- R184: one place more judged. -/
theorem recoverDamaged_step (stored : List (List Byte)) (i : Nat) (h : i < stored.length) :
    jobsUpTo stored (i + 1) =
      if goodCheck stored[i] || u16At stored[i] 0 == 0 || (jobsUpTo stored i).places.any fun o =>
          o.any (·.number == u16At stored[i] 0) then jobsUpTo stored i
      else ⟨(jobsUpTo stored i).places.set i (some (damagedJob (u16At stored[i] 0))),
        (jobsUpTo stored i).writes ++ [.job i], (jobsUpTo stored i).count + 1⟩ := by
  have at_eq : stored.getD i [] = stored[i] := by simp [h]
  have judged : (goodCheck stored[i] || u16At stored[i] 0 == 0 || (jobsUpTo stored i).places.any fun o =>
      o.any (·.number == u16At stored[i] 0)) = !jobDamaged stored i := by
    by_cases zero : u16At stored[i] 0 = 0
    · simp only [jobDamaged, at_eq, zero]
      simp
    · have known := jobAt_any_number stored i (u16At stored[i] 0) zero h.le
      rw [Bool.eq_iff_iff]
      simp only [jobDamaged, at_eq, Bool.or_eq_true, jobsUpTo, known, beq_iff_eq, zero, or_false, Bool.not_eq_true',
        Bool.and_eq_false_iff, Bool.not_eq_false', bne_eq_false_iff_eq, List.all_eq_false, List.mem_range,
        Bool.not_eq_true, or_assoc, not_or, bne_iff_ne, ne_eq, not_not]
  have places (damaged : jobDamaged stored i = true) : stored.mapIdx (jobAt stored (i + 1)) =
      (stored.mapIdx (jobAt stored i)).set i (some (damagedJob (u16At stored[i] 0))) := by
    refine List.ext_getElem (by simp) fun j hj _ => ?_
    rw [List.getElem_set, List.getElem_mapIdx, List.getElem_mapIdx]
    split
    · next same =>
      subst same
      simp [jobAt, damaged]
    · next other =>
      have same : (j < i + 1) = (j < i) := propext ⟨fun h => by omega, fun h => by omega⟩
      simp only [jobAt, same]
  have kept (whole : jobDamaged stored i = false) : stored.mapIdx (jobAt stored (i + 1)) =
      stored.mapIdx (jobAt stored i) := by
    refine List.ext_getElem (by simp) fun j hj _ => ?_
    rw [List.getElem_mapIdx, List.getElem_mapIdx]
    by_cases same : j = i
    · subst same
      simp [jobAt, whole]
    · have same : (j < i + 1) = (j < i) := propext ⟨fun h => by omega, fun h => by omega⟩
      simp only [jobAt, same]
  rw [judged]
  cases damaged : jobDamaged stored i with
  | true => simp [jobsUpTo, List.range_succ, damaged, places damaged]
  | false => simp [jobsUpTo, List.range_succ, damaged, kept damaged]

theorem recoverDamaged_eq (before rest : List (List Byte)) :
    recoverDamaged before.length rest (jobsUpTo (before ++ rest) before.length) =
      jobsUpTo (before ++ rest) (before ++ rest).length := by
  induction rest generalizing before with
  | nil => simp [recoverDamaged]
  | cons bs rest ih =>
    have next := ih (before ++ [bs])
    rw [List.append_assoc, List.singleton_append, List.length_append, List.length_singleton] at next
    have step := recoverDamaged_step (before ++ bs :: rest) before.length (by simp)
    have here : (before ++ bs :: rest)[before.length]'(by simp) = bs := by simp
    rw [here] at step
    rw [recoverDamaged]
    split
    · next skipped =>
      rw [if_pos skipped] at step
      rwa [step] at next
    · next taken =>
      rw [if_neg taken] at step
      rwa [step] at next

/-- R184: what recovery makes of the job places. -/
theorem recoverJobs_eq (stored : List (List Byte)) : recoverJobs stored = jobsUpTo stored stored.length := by
  have start : stored.foldl recoverGoodJob ⟨[], [], 0⟩ = jobsUpTo stored 0 := by
    rw [(recoverGoodJobs_eq stored).1, jobsUpTo, jobAt_zero]
    simp
  rw [recoverJobs, start]
  exact recoverDamaged_eq [] stored

end Sys2Proof.Machine

/-! PROOF. The part after start-up; the claim table (O9) and the store write queue (O10) are kept. -/

namespace Sys2Proof.Machine

open Sys2Proof Sys2Proof.Safety Relation

/-! ### The part after start-up -/

/-- R179: the part once start-up has read the settings and recovered the store, no write having gone out. -/
def recovered (station : Station) (s : State) : State :=
  { pending := s.pending
    station := station
    settings := settingsOf (abandonWrite s).config (abandonWrite s).calibration
    host := hostAfterReset s.host.phase
    floor := Floor.reset
    peers := Peer.resetTable
    register := { Register.reset with
      places := (abandonWrite s).slabs.mapIdx (slabAt (abandonWrite s).slabs)
      serial := recoverSerial (abandonWrite s).serial }
    claims := ClaimTable.reset
    staged := .empty
    active := Active.reset
    charge := Charge.reset
    water := Water.reset
    sump := { Sump.reset with volume := recoverVolume (abandonWrite s).sump }
    jobs := (jobsUpTo (abandonWrite s).jobs (abandonWrite s).jobs.length).places
    store :=
      { slabs := (abandonWrite s).slabs, jobs := (abandonWrite s).jobs, sump := (abandonWrite s).sump
        serial := (abandonWrite s).serial, config := (abandonWrite s).config
        calibration := (abandonWrite s).calibration
        queue := ((List.range (abandonWrite s).slabs.length).filter (slabRewritten (abandonWrite s).slabs)).map .slab ++
          (jobsUpTo (abandonWrite s).jobs (abandonWrite s).jobs.length).writes ++
          (if !goodCheck (abandonWrite s).sump then [.sump] else []) ++
          (if !goodCheck (abandonWrite s).serial then [.serial] else [])
        inFlight := none, newConfig := none, newCalibration := none
        leftOut := ((List.range (abandonWrite s).slabs.length).filter (slabLeftOut (abandonWrite s).slabs)).length
        damaged := (jobsUpTo (abandonWrite s).jobs (abandonWrite s).jobs.length).count
        sumpDefault := !goodCheck (abandonWrite s).sump, serialDefault := !goodCheck (abandonWrite s).serial
        faults := 0 }
    freeUses := s.freeUses + bitIf s.store.inFlight.isSome 1 }

theorem startUp_eq (station : Station) (s : State) : startUp station s = launchWrite (recovered station s) := by
  simp only [startUp, recovered, recoverJobs_eq, recoverSlabs_eq]

/-! ### The writes queued -/

theorem job_writes_nodup (stored : List (List Byte)) : (jobsUpTo stored stored.length).writes.Nodup := by
  have range (p : Nat → Bool) : (((List.range stored.length).filter p).map StorePlace.job).Nodup :=
    (List.nodup_range.filter _).map fun _ _ h => StorePlace.job.inj h
  refine List.nodup_append.mpr ⟨range _, range _, fun a ha b hb same => ?_⟩
  obtain ⟨i, hi, rfl⟩ := List.mem_map.mp ha
  obtain ⟨j, hj, rfl⟩ := List.mem_map.mp hb
  obtain rfl := StorePlace.job.inj same
  have bad := (jobDamaged_bad (List.mem_filter.mp hj).2).1
  have good := (List.mem_filter.mp hi).2
  simp only [jobRewritten, bad, Bool.false_and] at good
  exact absurd good (by simp)

theorem recovered_writes (station : Station) (s : State) : writesDistinct (recovered station s) := by
  have slabs : (((List.range (abandonWrite s).slabs.length).filter
      (slabRewritten (abandonWrite s).slabs)).map StorePlace.slab).Nodup :=
    (List.nodup_range.filter _).map fun _ _ h => StorePlace.slab.inj h
  have jobs := job_writes_nodup (abandonWrite s).jobs
  have isJob (p : StorePlace) (h : p ∈ (jobsUpTo (abandonWrite s).jobs (abandonWrite s).jobs.length).writes) :
      ∃ i, p = .job i := by
    obtain h | h := List.mem_append.mp h
    · obtain ⟨i, -, rfl⟩ := List.mem_map.mp h
      exact ⟨i, rfl⟩
    · obtain ⟨i, -, rfl⟩ := List.mem_map.mp h
      exact ⟨i, rfl⟩
  have records : (((List.range (abandonWrite s).slabs.length).filter
      (slabRewritten (abandonWrite s).slabs)).map StorePlace.slab ++
        (jobsUpTo (abandonWrite s).jobs (abandonWrite s).jobs.length).writes).Nodup := by
    refine List.nodup_append.mpr ⟨slabs, jobs, fun a ha b hb same => ?_⟩
    obtain ⟨i, -, rfl⟩ := List.mem_map.mp ha
    obtain ⟨j, rfl⟩ := isJob b hb
    cases same
  have others (p : StorePlace) (h : p ∈ ((List.range (abandonWrite s).slabs.length).filter
      (slabRewritten (abandonWrite s).slabs)).map StorePlace.slab ++
        (jobsUpTo (abandonWrite s).jobs (abandonWrite s).jobs.length).writes) : p ≠ .sump ∧ p ≠ .serial := by
    obtain h | h := List.mem_append.mp h
    · obtain ⟨i, -, rfl⟩ := List.mem_map.mp h
      simp
    · obtain ⟨j, rfl⟩ := isJob p h
      simp
  change List.Nodup (_ ++ _ ++ _ ++ _)
  refine List.nodup_append.mpr ⟨List.nodup_append.mpr ⟨records, by split <;> simp, fun a ha b hb same => ?_⟩,
    by split <;> simp, fun a ha b hb same => ?_⟩
  · split at hb
    · exact (others a ha).1 (same.trans (List.mem_singleton.mp hb))
    · simp at hb
  · have isSerial : b = .serial := by
      split at hb
      · exact List.mem_singleton.mp hb
      · simp at hb
    obtain ha | ha := List.mem_append.mp ha
    · exact (others a ha).2 (same.trans isSerial)
    · split at ha
      · exact absurd ((List.mem_singleton.mp ha).symm.trans (same.trans isSerial)) (by simp)
      · simp at ha

section Run
variable {k : Scope} {moved : Prop} {s t : State}

theorem Run.writesDistinct (h : Run k moved s t) (distinct : writesDistinct s) : writesDistinct t := by
  induction h with
  | refl => exact distinct
  | tail _ change ih =>
    cases change with
    | move m => exact m.writesDistinct ih
    | store kept =>
      rw [Safety.writesDistinct, kept.1]
      exact ih
    | erased => exact ih.filter _
    | started x =>
      rw [startUp_eq]
      exact launchWrite_writes (recovered_writes x _)
    | _ => exact ih

end Run

end Sys2Proof.Machine

namespace Sys2Proof.Proofs

open Sys2Proof Sys2Proof.Machine Sys2Proof.Safety

/-- Settles O9: entries come by TAKE and the purge alone, for a resource of no entry, while fewer than eight stand. -/
theorem stepKeepsClaimTable : Obligations.StepKeepsClaimTable := by
  intro s t sound stepped
  exact step_keeps (keeps := claimsSound) (fun _ _ h => h) (fun _ _ h => h) (fun _ _ run h => run.claimsSound h)
    sound stepped

/-- Settles O10: a change queues a place only where none of its entries waits. -/
theorem stepKeepsOneWriteAPlace : Obligations.StepKeepsOneWriteAPlace := by
  intro s t distinct stepped
  exact step_keeps (keeps := writesDistinct) (fun _ _ h => h) (fun _ _ h => h) (fun _ _ run h => run.writesDistinct h)
    distinct stepped

end Sys2Proof.Proofs

/-! PROOF. The queues kept for others stay within their limits, the transmit queue in order (the first and third parts of
O7). -/

namespace Sys2Proof.Machine

open Sys2Proof Sys2Proof.Safety Relation

/-! ### The transmit queue -/

theorem insertTx_perm (e : TxEntry) (q : List TxEntry) : (insertTx e q).Perm (e :: q) := by
  induction q with
  | nil => exact .refl _
  | cons x rest ih =>
    unfold insertTx
    split
    · exact .refl _
    · exact (ih.cons x).trans (.swap ..)

theorem insertTx_length (e : TxEntry) (q : List TxEntry) : (insertTx e q).length = q.length + 1 :=
  (insertTx_perm e q).length_eq

theorem mem_insertTx {e x : TxEntry} {q : List TxEntry} : x ∈ insertTx e q ↔ x = e ∨ x ∈ q := by
  rw [(insertTx_perm e q).mem_iff, List.mem_cons]

/-- R161: an entry younger than all stands in order. -/
theorem insertTx_ordered {e : TxEntry} {q : List TxEntry}
    (order : q.Pairwise fun a b => a.notice.kind < b.notice.kind ∨ (a.notice.kind = b.notice.kind ∧ a.age < b.age))
    (younger : ∀ x ∈ q, x.age < e.age) :
    (insertTx e q).Pairwise fun a b => a.notice.kind < b.notice.kind ∨ (a.notice.kind = b.notice.kind ∧ a.age < b.age) := by
  induction q with
  | nil => simp [insertTx]
  | cons x rest ih =>
    obtain ⟨first, order⟩ := List.pairwise_cons.mp order
    unfold insertTx
    split
    · next before =>
      refine List.pairwise_cons.mpr ⟨fun y mem => .inl ?_, List.pairwise_cons.mpr ⟨first, order⟩⟩
      obtain rfl | mem := List.mem_cons.mp mem
      · exact before
      · have := first y mem
        omega
    · next after =>
      refine List.pairwise_cons.mpr ⟨fun y mem => ?_, ih order fun y mem => younger y (by simp [mem])⟩
      obtain rfl | mem := mem_insertTx.mp mem
      · have := younger x (by simp)
        omega
      · exact first y mem

theorem worstWaiting_mem {q : List TxEntry} {w : TxEntry} (h : worstWaiting q = some w) :
    w ∈ q ∧ w.sending = false := by
  suffices found : w ∈ q.filter (!·.sending) by simpa using found
  unfold worstWaiting at h
  have start : ∀ x, none = some x → x ∈ q.filter (!·.sending) := fun x none => nomatch none
  revert start h
  generalize none = best
  suffices general : ∀ (p : List TxEntry) (best : Option TxEntry), (∀ e ∈ p, e ∈ q.filter (!·.sending)) →
      List.foldl _ best p = some w → (∀ x, best = some x → x ∈ q.filter (!·.sending)) → w ∈ q.filter (!·.sending) from
    general _ best fun _ h => h
  intro p
  induction p with
  | nil => exact fun best _ h start => start w h
  | cons e rest ih =>
    intro best inQueue h start
    refine ih _ (fun x mem => inQueue x (by simp [mem])) h fun x hx => ?_
    have mine := inQueue e (by simp)
    dsimp only at hx
    split at hx
    · obtain rfl := Option.some.inj hx
      exact mine
    · split at hx
      · obtain rfl := Option.some.inj hx
        exact mine
      · exact start x hx

/-- R162: what a notice handed leaves of the queue: itself in its place, a waiting one dropped for it or none; or nothing
new. -/
theorem enqueue_cases (f : Floor) (n : Notice) (owner : Option Nat) :
    let e : TxEntry := ⟨n, owner, 0, f.nextAge, false, false⟩
    (f.enqueue n owner).1.nextAge = f.nextAge + 1 ∧
    ((f.queue.length < 16 ∧ (f.enqueue n owner).1.queue = insertTx e f.queue) ∨
      (∃ w ∈ f.queue, (f.enqueue n owner).1.queue = insertTx e (f.queue.erase w)) ∨
      (f.enqueue n owner).1.queue = f.queue) := by
  unfold Floor.enqueue
  simp only
  split
  · next room => exact ⟨rfl, .inl ⟨room, rfl⟩⟩
  · split
    · next w worst =>
      split
      · exact ⟨rfl, .inr (.inl ⟨w, (worstWaiting_mem worst).1, rfl⟩)⟩
      · exact ⟨rfl, .inr (.inr rfl)⟩
    · exact ⟨rfl, .inr (.inr rfl)⟩

theorem enqueue_length (n : Notice) (owner : Option Nat) {f : Floor} (bounded : f.queue.length ≤ 16) :
    (f.enqueue n owner).1.queue.length ≤ 16 := by
  obtain ⟨-, ⟨room, e⟩ | ⟨w, mem, e⟩ | e⟩ := enqueue_cases f n owner
  · rw [e, insertTx_length]
    exact room
  · have := List.length_pos_of_mem mem
    rw [e, insertTx_length, List.length_erase_of_mem mem]
    omega
  · rwa [e]

theorem transmitFits.later {q : List TxEntry} {n m : Nat} (fits : transmitFits q n) (le : n ≤ m) : transmitFits q m :=
  ⟨fits.1, fun e mem => (fits.2.1 e mem).trans_le le, fits.2.2⟩

/-- R161, R113: an entry handed while no DEMAND waits, if it is one. -/
theorem transmitFits.insert {q : List TxEntry} {e : TxEntry} (fits : transmitFits q e.age) (waits : e.sending = false)
    (alone : e.notice.kind = 4 → q.any isWaitingDemand = false) : transmitFits (insertTx e q) (e.age + 1) := by
  obtain ⟨order, ages, sending, demands⟩ := fits
  refine ⟨insertTx_ordered order ages, fun x mem => ?_, ?_, ?_⟩
  · obtain rfl | mem := mem_insertTx.mp mem
    · exact Nat.lt_succ_self _
    · exact (ages x mem).trans (Nat.lt_succ_self _)
  · rw [((insertTx_perm e q).filter _).length_eq, List.filter_cons_of_neg (by simp [waits])]
    exact sending
  · rw [((insertTx_perm e q).filter _).length_eq]
    by_cases demand : e.notice.kind = 4
    · have none : (q.filter fun e => !e.sending && e.notice.kind == 4) = [] :=
        List.filter_eq_nil_iff.mpr fun x mem => (List.any_eq_false.mp (alone demand)) x mem
      simp [waits, demand, none]
    · rw [List.filter_cons_of_neg (by simp [demand])]
      exact demands

theorem enqueue_fits {n : Notice} (owner : Option Nat) {f : Floor} (fits : transmitFits f.queue f.nextAge)
    (alone : n.kind = 4 → f.queue.any isWaitingDemand = false) :
    transmitFits (f.enqueue n owner).1.queue (f.enqueue n owner).1.nextAge := by
  obtain ⟨age, ⟨-, e⟩ | ⟨w, -, e⟩ | e⟩ := enqueue_cases f n owner
  · rw [age, e]
    exact fits.insert rfl alone
  · rw [age, e]
    refine transmitFits.insert (fits.sublist List.erase_sublist) rfl fun demand => ?_
    exact List.any_eq_false.mpr fun x mem => (List.any_eq_false.mp (alone demand)) x (List.mem_of_mem_erase mem)
  · rw [age, e]
    exact fits.later (Nat.le_succ _)

theorem isWaitingDemand_replaced (value : Nat) (e : TxEntry) : isWaitingDemand
    (if isWaitingDemand e then { e with notice := .demand value, attempts := 0 } else e) = isWaitingDemand e := by
  split
  · next waits =>
    have unsent : e.sending = false := by simpa using ((Bool.and_eq_true ..).mp waits).1
    rw [waits]
    simp [isWaitingDemand, unsent, Notice.kind]
  · rfl

theorem replaceDemand_fits (value : Nat) {q : List TxEntry} {n : Nat} (fits : transmitFits q n) :
    transmitFits (replaceDemand value q) n := by
  have ⟨_, _, sending, demands⟩ := fits
  refine transmitFits_map fits (fun e _ => ?_) ?_ ?_
  · split
    · next waits =>
      simp only [isWaitingDemand, Bool.and_eq_true, beq_iff_eq] at waits
      exact ⟨waits.2.symm, rfl⟩
    · exact ⟨rfl, rfl⟩
  · have same : ((·.sending) ∘ fun e : TxEntry =>
        if isWaitingDemand e then { e with notice := .demand value, attempts := 0 } else e) = (·.sending) := by
      funext e
      simp only [Function.comp_apply]
      split <;> rfl
    rwa [List.filter_map, List.length_map, same]
  · change ((List.map _ _).filter isWaitingDemand).length ≤ 1
    have same : (isWaitingDemand ∘ fun e : TxEntry =>
        if isWaitingDemand e then { e with notice := .demand value, attempts := 0 } else e) = isWaitingDemand :=
      funext (isWaitingDemand_replaced value)
    rw [List.filter_map, List.length_map, same]
    exact demands

theorem withdrawOwned_fits (h : Nat) {s : State} (fits : transmitFits s.floor.queue s.floor.nextAge) :
    transmitFits (withdrawOwned h s).floor.queue s.floor.nextAge := by
  have kept := fits.sublist (p := s.floor.queue.filter fun t => t.sending || t.owner != some h) List.filter_sublist
  have ⟨_, _, sending, demands⟩ := kept
  refine transmitFits_map kept (fun e _ => by split <;> exact ⟨rfl, rfl⟩) ?_ ?_
  · have same : ((·.sending) ∘ fun t : TxEntry => if t.owner = some h then { t with yielded := true } else t) =
        (·.sending) := funext fun t => by simp only [Function.comp_apply]; split <;> rfl
    rwa [List.filter_map, List.length_map, same]
  · have same : ((fun e : TxEntry => !e.sending && e.notice.kind == 4) ∘
        fun t : TxEntry => if t.owner = some h then { t with yielded := true } else t) =
        fun e => !e.sending && e.notice.kind == 4 :=
      funext fun t => by simp only [Function.comp_apply]; split <;> rfl
    rwa [List.filter_map, List.length_map, same]

section Run
variable {k : Scope} {moved : Prop} {s t : State}

theorem Move.transmitOrdered (h : Move k s t) (ordered : transmitOrdered s) : transmitOrdered t := by
  cases h with
  | enqueue owner _ alone => exact enqueue_fits owner ordered alone
  | demand value => exact replaceDemand_fits value ordered
  | withdrawOwned h => exact withdrawOwned_fits h ordered
  | backlog => exact ordered
  | heardSlab c _ room =>
    rw [makeRoom_frame room]
    simpa only [transmitOrdered_iff, makeSlab_floor] using ordered
  | enteredSlab c room =>
    rw [makeRoom_frame room]
    simpa only [transmitOrdered_iff, makeSlab_floor, advanceSerial_floor, acceptWith_floor] using ordered
  | reserve room =>
    rw [reserve_frame room]
    exact ordered
  | _ => simpa [makeRemnant, transmitOrdered_iff] using ordered

theorem Run.transmitOrdered (h : Run k moved s t) (ordered : transmitOrdered s) : transmitOrdered t := by
  induction h with
  | refl => exact ordered
  | tail _ change ih =>
    cases change with
    | move m => exact m.transmitOrdered ih
    | floor queue age =>
      rw [transmitOrdered_iff]
      simp only [queue, age]
      exact ih
    | queue _ _ fits => exact fits ih
    | started x =>
      rw [transmitOrdered_iff, startUp_floor]
      simp [transmitFits, Floor.reset]
    | _ => exact ih

/-! ### The limits of the queues -/

theorem orderFrame_bounded (r : Report) (bounded : outboundBounded s) : outboundBounded (orderFrame r s) := by
  unfold orderFrame
  simp only
  split
  · next fits => exact fits
  · exact bounded

theorem report_bounded (r : Report) (bounded : outboundBounded s) : outboundBounded (report r s) := by
  obtain ⟨admitted, e⟩ | ⟨-, e⟩ := report_cases r s
  · rw [e]
    obtain ⟨frames, bytes⟩ := (admits_iff r s).mp admitted
    refine ⟨?_, ?_⟩
    · simp only [List.length_append, List.length_singleton]
      omega
    · simp only [heldBytes_append_one]
      omega
  · rwa [e]

theorem report_inbound (r : Report) (s : State) : (report r s).host.inbound = s.host.inbound := by
  unfold report
  split <;> rfl

theorem orderFrame_inbound (r : Report) (s : State) : (orderFrame r s).host.inbound = s.host.inbound := by
  unfold orderFrame
  simp only
  split <;> rfl

theorem heldBytes_sublist {p q : List Outbound} (sub : p.Sublist q) : heldBytes p ≤ heldBytes q :=
  (sub.map _).sum_le_sum fun _ _ => Nat.zero_le _

theorem queuesBounded_congr (host : t.host = s.host) (floor : t.floor = s.floor) (bounded : queuesBounded s) :
    queuesBounded t := by
  rw [Safety.queuesBounded, outboundBounded, inboundBounded, transmitBounded, host, floor]
  exact bounded

theorem Move.queuesBounded (h : Move k s t) (bounded : queuesBounded s) : queuesBounded t := by
  have ⟨outbound, inbound, transmit⟩ := bounded
  cases h with
  | report =>
    refine ⟨report_bounded _ outbound, ?_, by simpa using transmit⟩
    rw [inboundBounded, report_inbound]
    exact inbound
  | orderFrame r =>
    refine ⟨orderFrame_bounded _ outbound, ?_, by simpa using transmit⟩
    rw [inboundBounded, orderFrame_inbound]
    exact inbound
  | withdraw tag =>
    have sub : (withdrawOrders tag s).host.outbound.Sublist s.host.outbound := List.filter_sublist
    exact ⟨⟨sub.length_le.trans outbound.1, (heldBytes_sublist sub).trans outbound.2⟩, inbound, transmit⟩
  | pop =>
    have sub : s.host.inbound.tail.Sublist s.host.inbound := List.tail_sublist _
    exact ⟨outbound, ⟨sub.length_le.trans inbound.1,
      ((sub.map _).sum_le_sum fun _ _ => Nat.zero_le _).trans inbound.2⟩, transmit⟩
  | enqueue owner => exact ⟨outbound, inbound, enqueue_length _ owner transmit⟩
  | demand value => exact ⟨outbound, inbound, by simpa [transmitBounded, replaceDemand] using transmit⟩
  | withdrawOwned h =>
    refine ⟨outbound, inbound, ?_⟩
    rw [transmitBounded, Machine.withdrawOwned, List.length_map]
    exact (List.length_filter_le _ _).trans transmit
  | heardSlab c _ room =>
    rw [makeRoom_frame room]
    exact queuesBounded_congr (by simp) (by simp) bounded
  | enteredSlab c room =>
    have same := makeRoom_frame room
    rename_i u
    have accepted := report_bounded (s := u) (.accepted 0x01 (.slabId (idToIssue u))) (by rw [same]; exact outbound)
    refine ⟨by simpa only [outboundBounded, makeSlab_host, advanceSerial_host, acceptWith] using accepted, ?_,
      by rw [same]; simpa using transmit⟩
    simp only [inboundBounded, makeSlab_host, advanceSerial_host, acceptWith, report_inbound]
    rw [same]
    exact inbound
  | reserve room =>
    rw [reserve_frame room]
    exact bounded
  | backlog => exact bounded
  | overflow => exact bounded
  | remnant => exact queuesBounded_congr (by simp [makeRemnant]) (by simp [makeRemnant]) bounded
  | _ => exact queuesBounded_congr (by simp) (by simp) bounded

theorem startUp_host (x : Station) (s : State) : (startUp x s).host = hostAfterReset s.host.phase := by simp [startUp]

theorem Run.queuesBounded (h : Run k moved s t) (bounded : queuesBounded s) : queuesBounded t := by
  induction h with
  | refl => exact bounded
  | tail _ change ih =>
    have ⟨outbound, inbound, transmit⟩ := ih
    cases change with
    | move m => exact m.queuesBounded ih
    | host kept =>
      obtain ⟨frames, bytes, -, inbound'⟩ := kept
      exact ⟨⟨frames.trans outbound.1, bytes.trans outbound.2⟩, inbound' inbound, transmit⟩
    | floor queue => exact ⟨outbound, inbound, by rwa [transmitBounded, queue]⟩
    | queue _ fewer => exact ⟨outbound, inbound, fewer.trans transmit⟩
    | started x =>
      rename_i u _ _ _ _ _
      rw [Safety.queuesBounded, outboundBounded, inboundBounded, transmitBounded, startUp_floor x u, startUp_host x u]
      simp [hostAfterReset, HostLink.reset, Floor.reset, heldBytes]
    | _ => exact ih

theorem step_keeps_queuesBounded (bounded : queuesBounded s) (stepped : step s = .next t) : queuesBounded t :=
  step_keeps (keeps := queuesBounded) (fun _ _ h => h) (fun _ _ h => h) (fun _ _ run h => run.queuesBounded h)
    bounded stepped

theorem step_keeps_transmitOrdered (ordered : transmitOrdered s) (stepped : step s = .next t) : transmitOrdered t :=
  step_keeps (keeps := transmitOrdered) (fun _ _ h => h) (fun _ _ h => h) (fun _ _ run h => run.transmitOrdered h)
    ordered stepped

end Run

end Sys2Proof.Machine

/-! PROOF. What each command does to the active slot: it leaves it alone, or goes by the rules of `slotGoes`. -/

namespace Sys2Proof.Machine

open Sys2Proof Sys2Proof.Safety Relation

/-- R67 to R90: the active slot as it was, no order frame more unread. -/
def quieter (s t : State) : Prop := t.active = s.active ∧ (unreadOrders t).Sublist (unreadOrders s)

section Slot
variable {apart : Prop} {k : Scope} {moved : Prop} {s t u : State}

theorem calm.quieter (h : calm s t) : quieter s t := ⟨h.1, by rw [h.2]⟩

theorem slotGoes.imp {other : Prop} (h : slotGoes apart s t) (weaker : apart → other) : slotGoes other s t :=
  ⟨h.tag, h.paused, h.fits, h.frames, fun fits kept => (h.aborted fits kept).imp_right weaker,
    fun live => (h.live live).imp_right weaker⟩

theorem slotGoes.of_quieter (h : quieter s t) : slotGoes apart s t := by
  obtain ⟨active, unread⟩ := h
  constructor
  · exact .inl ⟨by rw [active], fun o ho => ⟨o, by rwa [active] at ho, rfl, rfl, rfl⟩⟩
  · rw [pausedWaits, pausedWaits, active]
    exact id
  · exact (orderFits_congr active).mpr
  · intro _ waits
    rw [framesWait, active]
    exact framesFit.sublist waits.2 unread
  · rw [abortedKeepsOrder, active]
    exact fun _ kept => .inl kept
  · rw [planLive, active]
    exact fun live => .inl ⟨live, rfl⟩

/-- A run that may not touch the slot only reads order frames out. -/
theorem Run.quieter (h : Run k moved s t) (quiet : ¬ k.slot) : quieter s t := by
  induction h with
  | refl => exact ⟨rfl, .refl _⟩
  | tail _ change ih =>
    obtain ⟨active, unread⟩ := ih
    cases change with
    | move m => exact ⟨(Moves.sameSlot quiet (.single m)).trans active, by rw [m.sameFrames quiet]; exact unread⟩
    | host kept => exact ⟨active, kept.2.2.1.trans unread⟩
    | started _ _ _ slot => exact absurd slot quiet
    | _ => exact ⟨active, unread⟩

theorem Run.goes (h : Run Scope.quiet moved s t) : slotGoes apart s t := .of_quieter (h.quieter id)

theorem Moves.goes (h : Moves Scope.quiet s t) : slotGoes apart s t := .of_calm h.calm

theorem takeCommand_goes {straps : Nat} {c : Instr} {run : State → State} (h : takeCommand straps c run s = .next t)
    (runs : slotGoes apart (popInbound s) (run (popInbound s))) : slotGoes apart s t := by
  obtain rfl | rfl := takeCommand_cases h
  · exact .of_calm (calm.refl _)
  · refine slotGoes.congr_right ?_ (launchWrite_moves (k := Scope.quiet) _).calm
    exact runs.after_calm (u := popInbound s) ⟨rfl, rfl⟩ id

/-- A host command whose run leaves the slot alone. -/
theorem takeCommand_quiet {straps : Nat} {c : Instr} {run : State → State} (h : takeCommand straps c run s = .next t)
    (runs : ∀ u, Run Scope.quiet True u (run u)) : slotGoes apart s t := takeCommand_goes h (runs _).goes

theorem takeCommand_calm {straps : Nat} {c : Instr} {run : State → State} (h : takeCommand straps c run s = .next t)
    (runs : ∀ u, Moves Scope.quiet u (run u)) : slotGoes apart s t := takeCommand_goes h (runs _).goes

/-! ### Host commands -/

theorem runAbortPlan_goes (s : State) : slotGoes apart s (runAbortPlan s) := by
  have refused (why : Reason) : slotGoes apart s (refuse 0x0D why s) := (refuse_moves ..).goes
  obtain ⟨active, unread⟩ := (accept_moves (k := Scope.quiet) 0x0D s).calm
  unfold runAbortPlan
  cases state : s.active.state with
  | empty => exact refused _
  | done => exact refused _
  | ending => exact refused _
  | aborted => exact refused _
  | paused =>
    have orderless (fits : orderFits s) := orderless_of_fits fits (.inr (.inl state))
    refine .abortPlan _ ⟨by rw [active], fun o ho => ⟨o, by rwa [active] at ho, rfl, rfl, rfl⟩⟩ (fun fits => ?_)
      (fun _ waits => ?_) fun fits => .inl ?_
    · obtain ⟨order, overrun, stopWait⟩ := orderless fits
      simp [order, overrun, stopWait]
    · rw [framesWait, active, unread]
      exact waits.2
    · rw [active]
      exact (orderless fits).1
  | running =>
    simp only
    split
    · next o order => exact .stopRunning .hostAbort state order ⟨s.active.overrun, active⟩ unread
    · exact refused _

/-- R83 to R85: the pending set changed after operations that leave the slot alone. -/
theorem setPending_goes (p : Pending) (h : ∀ k : Scope, k.line ∨ mutedAndSilent s → Moves k s u) :
    slotGoes apart s (setPending p u) := (slotGoes.setPending p u).after_moves h

theorem runContinue_goes (s : State) : slotGoes apart s (runContinue s) := by
  unfold runContinue
  split
  · exact setPending_goes _ fun _ _ => accept_moves ..
  · exact (refuse_moves ..).goes

theorem runSegmentDone_goes (tag length time : Nat) (s : State) : slotGoes apart s (runSegmentDone tag length time s) :=
  takeReport_goes _ _ _ _ _ s fun _ o length ended => ended.afterDone o length

theorem runSegmentPaused_goes (tag length time : Nat) (s : State) :
    slotGoes apart s (runSegmentPaused tag length time s) :=
  takeReport_goes _ _ _ _ _ s fun _ o length ended => ended.afterPaused o length

theorem runSegmentFault_goes (tag cause length time : Nat) (s : State) :
    slotGoes apart s (runSegmentFault tag cause length time s) := by
  unfold runSegmentFault
  split
  · exact (refuse_moves ..).goes
  · next known => exact takeReport_goes _ _ _ _ _ s fun _ o length ended => ended.afterFault known o length

/-- R93: with no claim HELD the settlement is refused, so an ABORTED slot that keeps its order is not emptied. -/
theorem runCloseSlab_goes (slab mode job : Nat) (s : State) : slotGoes apart s (runCloseSlab slab mode job s) := by
  rw [runCloseSlab_eq]
  by_cases passed : ∀ c ∈ closeChecks slab mode job s, c.1 = false
  · obtain ⟨⟨r, found, cutOpen⟩, held⟩ := closeChecks_passed passed
    have settled : calm s (settleSlab slab mode job s) :=
      (settleSlab_moves (k := Scope.quiet) slab mode job (.inl trivial) (letsGo_of_none rfl)).calm
    rw [checked_run ((firstRefusal_eq_none_iff _).mpr passed)]
    unfold clearSettled
    split
    · next aborted =>
      obtain ⟨active, unread⟩ := settled
      have released := (releaseJobs_moves (k := Scope.quiet)
        (distinctJobs (settleSlab slab mode job s).active.plan.pieces) (settleSlab slab mode job s)).calm
      refine .emptied (by rw [emptyActive, released.1, active]) fun fits waits => ?_
      have none : s.active.order = none := by
        by_contra order
        have state : s.active.state = .aborted := by
          rw [abortedOn, active] at aborted
          simpa using ((Bool.and_eq_true ..).mp aborted).1
        have silent := waits.1 state order
        simp [isHeld, claimOn, silent.2.2.2] at held
      exact (released.2.trans unread).trans (unread_of_orderless waits none)
    · exact .of_calm settled
  · obtain ⟨why, refused⟩ := Option.ne_none_iff_exists'.mp (mt (firstRefusal_eq_none_iff _).mp passed)
    simp only [checked, refused]
    exact (refuse_moves ..).goes

theorem issuePlan_state (s : State) (running : s.active.state = .running) : (issuePlan s).active.state = .running ∨
    (issuePlan s).active.state = .paused := by
  obtain ⟨cause, f, -, same⟩ | issued := issuePlan_cases s
  · exact .inr (by rw [same.1]; rfl)
  · rw [issued]
    exact .inl (by simpa [issueOrder] using running)

theorem startPlan_not_aborted (p : Plan) (s : State) : (startPlan p s).active.state ≠ .aborted := by
  have running : (tellWater (setSlabState p.slab .cutting (loadActive p s))).active.state = .running :=
    (tellWater_answers _).state.trans (by rw [setSlabState_active]; rfl)
  rw [startPlan]
  obtain h | h := issuePlan_state _ running
  · simp [h]
  · simp [h]

theorem runStartPlan_goes (s : State) :
    slotGoes ((runStartPlan s).active.state ≠ .aborted) s (runStartPlan s) := by
  have refused (why : Reason) {apart : Prop} : slotGoes apart s (refuse 0x0C why s) := (refuse_moves ..).goes
  unfold runStartPlan
  split
  · exact refused _
  · split
    · exact refused _
    · split
      · exact refused _
      · next free =>
        split
        · next p _ =>
          split
          · exact refused _
          · split
            · exact refused _
            · have accepted := (accept_moves (k := Scope.quiet) 0x0C s).calm
              refine slotGoes.imp ((startPlan_goes (s := accept 0x0C s) (p := p) ?_).after_moves fun _ _ =>
                accept_moves ..) fun _ => startPlan_not_aborted _ _
              rw [accepted.1]
              simpa using free
        · exact refused _
        · exact refused _
        · exact refused _
        · exact refused _

end Slot

end Sys2Proof.Machine

namespace Sys2Proof.Machine

open Sys2Proof Sys2Proof.Safety Relation

section Slot
variable {apart : Prop} {k : Scope} {moved : Prop} {s t u : State}

/-! ### Notices heard -/

/-- A run that leaves the slot alone and a muted, silent station so. -/
theorem slotGoes.after_run (run : ∀ k : Scope, k.line ∨ mutedAndSilent s → Run k moved s u) (h : slotGoes apart u t) :
    slotGoes apart s t := by
  have quiet := (run Scope.quiet (.inl trivial)).quieter id
  have silent (muted : mutedAndSilent s) : mutedAndSilent u :=
    ((run ⟨False, False, none⟩ (.inr muted)).voice (.inr muted)).resolve_left id
  obtain ⟨active, unread⟩ := quiet
  obtain ⟨tags, paused, stays, frames, aborted, live⟩ := h
  have fits := orderFits_congr active
  constructor
  · simpa only [tagKept, tagAdvanced, active] using tags
  · simpa only [pausedWaits, active] using paused
  · exact stays ∘ fits.mpr
  · refine fun h waits => frames (fits.mpr h) ⟨?_, ?_⟩
    · rw [active]
      exact fun a b => silent (waits.1 a b)
    · rw [active]
      exact framesFit.sublist waits.2 unread
  · simpa only [abortedKeepsOrder, active] using fun h => aborted (fits.mpr h)
  · simpa only [planLive, active] using live

/-- R72, R164: a peer heard may change the order in flight by its feed alone. -/
theorem peerHeard_answers (station : Nat) (demand : Option Nat) (s : State) :
    waterAnswer s (peerHeard station demand s) := by
  have set := (setPeer_moves (k := Scope.quiet) station ((peerOf s station).afterNotice demand) s).calm
  have shared : waterAnswer s (if (peerOf s station).presence ≠ .present ∨ demand.isSome then
      recomputeWater (setPeer station ((peerOf s station).afterNotice demand) s)
      else setPeer station ((peerOf s station).afterNotice demand) s) := by
    split
    · exact (recomputeWater_answers _).before set
    · exact .inl set
  unfold peerHeard
  simp only
  split
  · exact shared.after (sweepStep_moves (k := Scope.quiet) 0 (.inl trivial)).calm
  · exact shared

/-- What an owner does to the slot when it takes a notice: nothing to a RUNNING one. -/
structure ownerGoes (apart : Prop) (owner : State → State) : Prop where
  goes : ∀ u, slotGoes apart u (owner u)
  running : ∀ u, u.active.state = .running → calm u (owner u)

theorem ownerGoes.of_calm {owner : State → State} (h : ∀ u, calm u (owner u)) : ownerGoes apart owner :=
  ⟨fun u => .of_calm (h u), fun u _ => h u⟩

theorem ownerGoes.of_moves {owner : State → State} (h : ∀ u, Moves Scope.quiet u (owner u)) : ownerGoes apart owner :=
  .of_calm fun u => (h u).calm

theorem onRetire_goes (slab : Nat) : ownerGoes apart (onRetire slab) := by
  have gone (u : State) : ∀ k : Scope, letsGo k u slab → Moves k u (stampSlab slab (setSlabState slab .gone u)) :=
    fun k free => (setSlabState_moves (.inl free)).trans (stampSlab_moves ..)
  constructor
  · intro u
    unfold onRetire
    split
    · exact (countRefused_moves u).goes
    · split
      · exact .of_calm (calm.refl u)
      · next r found =>
        cases state : r.state with
        | stock =>
          exact (slabGone_goes slab _).after_moves fun k _ => gone u k (letsGo_of_found found (by simp [state]))
        | cutOpen =>
          exact (slabGone_goes slab _).after_moves fun k _ => gone u k (letsGo_of_found found (by simp [state]))
        | gone => exact (stampSlab_moves ..).goes
        | cutting => exact (countRefused_moves u).goes
  · intro u running
    have cleared (v : State) (same : calm u v) : calm u (slabGone slab v) := by
      have stale := same.trans (stalePlan_moves (k := Scope.quiet) slab .gone v).calm
      rw [slabGone, clearAborted, if_neg]
      · exact stale
      · rw [stale.1, running]
        simp
    unfold onRetire
    split
    · exact (countRefused_moves (k := Scope.quiet) u).calm
    · split
      · exact calm.refl u
      · next r found =>
        cases r.state with
        | stock => exact cleared _ (gone u Scope.quiet (letsGo_of_none rfl)).calm
        | cutOpen => exact cleared _ (gone u Scope.quiet (letsGo_of_none rfl)).calm
        | gone => exact (stampSlab_moves (k := Scope.quiet) ..).calm
        | cutting => exact (countRefused_moves (k := Scope.quiet) u).calm

/-! ### Muting -/

theorem muteClaim_floor (e : ClaimEntry) (s : State) : (muteClaim e s).floor = s.floor := by
  unfold muteClaim
  simp only
  split
  · split <;> simp
  · simp

theorem muteClaim_entries (e : ClaimEntry) (s : State) :
    (muteClaim e s).claims.entries = s.claims.entries.filter (·.handle != e.handle) := by
  unfold muteClaim
  simp only
  split
  · split <;> simp [removeClaim]
  · simp [removeClaim]

theorem muteEntries_floor (entries : List ClaimEntry) (s : State) :
    (entries.foldl (fun s e => muteClaim e s) s).floor = s.floor := by
  induction entries generalizing s with
  | nil => rfl
  | cons e rest ih => exact (ih _).trans (muteClaim_floor e s)

theorem muteEntries_entries (entries : List ClaimEntry) (s : State) :
    (entries.foldl (fun s e => muteClaim e s) s).claims.entries =
      s.claims.entries.filter fun x => entries.all fun e => x.handle != e.handle := by
  induction entries generalizing s with
  | nil => simp
  | cons e rest ih =>
    rw [List.foldl_cons, ih, muteClaim_entries, List.filter_filter]
    simp only [List.all_cons, Bool.and_comm]

/-- R41: no entry is left. -/
theorem muteClaims_entries (s : State) : (muteClaims s).claims.entries = [] := by
  refine (muteEntries_entries s.claims.entries s).trans (List.filter_eq_nil_iff.mpr fun x mem all => ?_)
  simpa using List.all_eq_true.mp all x mem

theorem muteClaims_silent (s : State) : mutedAndSilent (muteClaims (muteFloor s)) := by
  have floor : (muteClaims (muteFloor s)).floor = (muteFloor s).floor := muteEntries_floor _ _
  refine ⟨?_, ?_, ?_, muteClaims_entries _⟩
  · rw [floor]
    rfl
  · rw [floor]
    rfl
  · rw [floor]
    rfl

/-- R166: a station muted is silent. -/
theorem muteStation_silent (s : State) : mutedAndSilent (muteStation s) := by
  have silent := muteClaims_silent s
  have after : Moves ⟨True, False, none⟩ (muteClaims (muteFloor s)) (muteStation s) :=
    ((mutePlan_moves (.inr silent) trivial rfl).trans (water_moves _ _)).trans (muteSump_moves.trans (trap_moves ..))
  exact (after.voice (.inr silent)).resolve_left id

theorem muteStation_goes (s : State) : slotGoes (mutedAndSilent (muteStation s) ∧ ¬ planLive (muteStation s)) s
    (muteStation s) := by
  have claims : calm s (muteClaims (muteFloor s)) := by
    have moves : Moves Scope.quiet (muteFloor s) (muteClaims (muteFloor s)) := muteClaims_moves trivial rfl
    exact calm.trans (t := muteFloor s) ⟨rfl, rfl⟩ moves.calm
  have after : Moves Scope.quiet (mutePlan (muteClaims (muteFloor s))) (muteStation s) :=
    (water_moves _ _).trans (muteSump_moves.trans (trap_moves ..))
  have silent := muteStation_silent s
  refine slotGoes.imp (((mutePlan_goes _).after_calm claims fun _ => muteClaims_silent s).congr_right after.calm) fun _ => ?_
  refine ⟨silent, ?_⟩
  rw [planLive, muteStation_active]
  exact mutePlan_not_live _

/-- R155 to R166: a notice heard, its owner's part by the rules. -/
theorem hearNotice_goes (kind station : Nat) (demand : Option Nat) {owner : State → State} (h : ownerGoes apart owner)
    (muted : mutedAndSilent (hearNotice kind station demand owner s) →
      ¬ planLive (hearNotice kind station demand owner s) → apart) :
    slotGoes apart s (hearNotice kind station demand owner s) := by
  have launched (u : State) : calm u (launchWrite u) := (launchWrite_moves (k := Scope.quiet) u).calm
  have taken {t : State} (goes : slotGoes apart (takeNotice kind station s) t) : slotGoes apart s t :=
    slotGoes.after_run (moved := False) (fun _ v => takeNotice_run kind station v) goes
  unfold hearNotice at muted ⊢
  split
  · exact .of_calm (calm.refl s)
  · next hears =>
    rw [if_neg hears] at muted
    split
    · next own =>
      rw [if_pos own] at muted
      split
      · next armed =>
        rw [if_pos armed] at muted
        refine taken ((muteStation_goes _).congr_right (launched _) |>.imp fun ⟨silent, dead⟩ => muted ?_ ?_)
        · simpa [mutedAndSilent] using silent
        · rwa [planLive_launchWrite]
      · exact taken ((h.goes _).congr_right (launched _))
    · obtain same | ⟨o, p, r, running, order, rest⟩ := peerHeard_answers station demand (takeNotice kind station s)
      · refine taken (slotGoes.after_calm same (fun silent => ?_) ((h.goes _).congr_right (launched _)))
        have heard := peerHeard_moves (k := ⟨True, False, none⟩) station demand (.inr silent) (.inl trivial)
        exact (heard.voice (.inr silent)).resolve_left id
      · have answered := peerHeard_answers station demand (takeNotice kind station s)
        have still := answered.state.trans running
        exact taken (((slotGoes.of_answer answered).congr_right (h.running _ still)).congr_right (launched _))

/-! ### The part's own events -/

theorem resumeDwellExpiry_goes (h : execResumeDwellExpiry s = .next t) : slotGoes apart s t := by
  obtain rfl := Host.Outcome.next.inj h
  split
  · exact ((slotGoes.dwellEnded _).after_moves fun _ _ => water_moves _ s).congr_right
      (launchWrite_moves (k := Scope.quiet) _).calm
  · exact .of_calm (calm.refl s)

theorem pressDone_goes (h : execPressDone s = .next t) : slotGoes apart s t := by
  obtain rfl := Host.Outcome.next.inj h
  split
  · rw [endPurge_eq]
    have reported (k : Scope) (v : k.line ∨ mutedAndSilent s) : Moves k s (purgeReported s) := purgeReported_moves v
    have rest (u : State) : calm u (launchWrite (testThreshold (pressIdle u))) :=
      ((pressIdle_moves (k := Scope.quiet) u).trans
        ((testThreshold_moves (.inl trivial)).trans (launchWrite_moves _))).calm
    refine slotGoes.congr_right ?_ (rest _)
    split
    · exact (slotGoes.sumpCleared _).after_moves reported
    · exact (reported Scope.quiet (.inl trivial)).goes
  · exact .of_calm (calm.refl s)

theorem recomputeWater_goes (h : ∀ k : Scope, k.line ∨ mutedAndSilent s → Moves k s u) :
    slotGoes apart s (recomputeWater u) := (slotGoes.of_answer (recomputeWater_answers u)).after_moves h

theorem peerLapse_goes (station : Nat) (h : execPeerLapse station s = .next t) : slotGoes apart s t := by
  obtain rfl := Host.Outcome.next.inj h
  simp only
  split
  · exact recomputeWater_goes fun _ _ => setPeer_moves ..
  · exact .of_calm (calm.refl s)

theorem peerAbsent_goes (station : Nat) (h : execPeerAbsent station s = .next t) : slotGoes apart s t := by
  obtain rfl := Host.Outcome.next.inj h
  simp only
  split
  · exact recomputeWater_goes fun _ _ => setPeer_moves ..
  · exact .of_calm (calm.refl s)

theorem tick_goes (s : State) : slotGoes apart s (tick s) := by
  refine .of_timers ⟨tickTimer s.active.overrun, tickTimer s.active.stopWait, rfl⟩ rfl fun fits => ?_
  have some (o : Option Nat) : (tickTimer o).isSome = o.isSome := by cases o <;> rfl
  have none (o : Option Nat) : tickTimer o = Option.none ↔ o = Option.none := by cases o <;> simp [tickTimer]
  unfold orderFits at fits ⊢
  cases state : s.active.state <;> simpa [tick, state, some, none] using fits

end Slot

end Sys2Proof.Machine

/-! PROOF. The order frames that wait (O7) and the order's tag (O15), over what every command does to the active slot. -/

namespace Sys2Proof.Machine

open Sys2Proof Sys2Proof.Safety Relation

/-- R65, R166: what a command may make of the slot but by the rules: a plan started, or a station muted. -/
def setsApart (c : Instr) (t : State) : Prop :=
  (c = .startPlan ∧ t.active.state ≠ .aborted) ∨ (mutedAndSilent t ∧ ¬ planLive t)

section Slot
variable {s t : State}

theorem startPlan_exec_goes (h : exec .startPlan s = .next t) : slotGoes (setsApart .startPlan t) s t := by
  obtain rfl | rfl := takeCommand_cases h
  · exact .of_calm (calm.refl _)
  · have goes := (runStartPlan_goes (popInbound s)).imp fun started =>
      (.inl ⟨rfl, by simpa using started⟩ : setsApart .startPlan (launchWrite (runStartPlan (popInbound s))))
    exact (goes.congr_right (launchWrite_moves (k := Scope.quiet) _).calm).after_calm (u := popInbound s) ⟨rfl, rfl⟩ id

/-- What every command but a reset does to the active slot. -/
theorem exec_goes {c : Instr} (h : exec c s = .next t) (other : isReset c = false) : slotGoes (setsApart c t) s t := by
  have heard {kind station : Nat} {demand : Option Nat} {owner : State → State}
      (ran : (.next (hearNotice kind station demand owner s) : Host.Outcome State Fault Refusal) = .next t)
      (goes : ownerGoes (setsApart c t) owner) : slotGoes (setsApart c t) s t := by
    obtain rfl := Host.Outcome.next.inj ran
    exact hearNotice_goes kind station demand goes fun silent dead => .inr ⟨silent, dead⟩
  have v : Scope.quiet.line ∨ mutedAndSilent s := .inl trivial
  cases c with
  | pinReset => cases other
  | restart => cases other
  | transactionStart => exact (transactionStart_run (moved := True) h).goes
  | inboundFrame kind body taken => exact (inboundFrame_run (moved := True) kind body taken h).goes
  | malformedFrame => exact (malformedFrame_run (moved := True) h).goes
  | selectInactive cut => exact (selectInactive_run (moved := True) cut h).goes
  | outboundFrameRead => exact (outboundFrameRead_run (moved := True) h).goes
  | startUpEnd => exact (startUpEnd_run (moved := True) h).goes
  | readMarker => exact (readMarker_run (moved := True) h).goes
  | frameReadBegun => exact (frameReadBegun_run (moved := True) h).goes
  | enterSlab => exact takeCommand_calm h fun _ => runEnterSlab_moves _ (.inl trivial)
  | readSlab slab => exact takeCommand_calm h fun _ => runReadSlab_moves slab
  | listSlabs start => exact takeCommand_calm h fun _ => runListSlabs_moves start
  | take slab job => exact takeCommand_calm h fun _ => runTake_moves slab job (.inl trivial)
  | give slab => exact takeCommand_calm h fun _ => runGive_moves slab (.inl trivial) fun _ mine => by cases mine
  | planHead plan slab => exact takeCommand_calm h fun _ => runPlanHead_moves plan slab
  | planPieces pieces => exact takeCommand_calm h fun _ => loadFrame_moves _ _ fun _ => rfl
  | planRemnants remnants => exact takeCommand_calm h fun _ => loadFrame_moves _ _ fun _ => rfl
  | planSegments segments => exact takeCommand_calm h fun _ => loadFrame_moves _ _ fun _ => rfl
  | planEnd => exact takeCommand_calm h fun _ => runPlanEnd_moves
  | dropPlan => exact takeCommand_calm h fun _ => runDropPlan_moves
  | startPlan => exact startPlan_exec_goes h
  | abortPlan => exact takeCommand_goes h (runAbortPlan_goes _)
  | continuePlan => exact takeCommand_goes h (runContinue_goes _)
  | segmentDone tag length time => exact takeCommand_goes h (runSegmentDone_goes tag length time _)
  | segmentPaused tag length time => exact takeCommand_goes h (runSegmentPaused_goes tag length time _)
  | segmentFault tag cause length time => exact takeCommand_goes h (runSegmentFault_goes tag cause length time _)
  | closeSlab slab mode job => exact takeCommand_goes h (runCloseSlab_goes slab mode job _)
  | openJob job estimate => exact takeCommand_calm h fun _ => runOpenJob_moves job estimate
  | closeJob job => exact takeCommand_calm h fun _ => runCloseJob_moves job
  | freeJob job => exact takeCommand_calm h fun _ => runFreeJob_moves job
  | readJob job => exact takeCommand_calm h fun _ => runReadJob_moves job
  | purgeNow => exact takeCommand_calm h fun _ => runPurgeNow_moves (.inl trivial)
  | join => exact takeCommand_quiet h fun _ => runJoin_run (.inl trivial) trivial
  | readStation => exact takeCommand_calm h fun _ => runReadStation_moves
  | readPeers => exact takeCommand_calm h fun _ => runReadPeers_moves
  | setStation first second number => exact takeCommand_quiet h fun _ => runSetStation_run first second number
  | writeConfig fields => exact takeCommand_calm h fun _ => runWriteConfig_moves fields
  | writeCalibration kRecycled kFresh =>
    exact takeCommand_calm h fun _ => runWriteCalibration_moves kRecycled kFresh
  | storeErase => exact takeCommand_quiet h fun _ => runStoreErase_run fun _ => rfl
  | pollReceived station resource =>
    refine heard h (.of_calm fun u => ?_)
    unfold answerPoll
    split <;> exact calm.refl _
  | claimReceived station resource job => exact heard h (.of_moves fun _ => onClaim_moves station resource (.inl trivial))
  | releaseReceived station resource => exact heard h (.of_moves fun u => onRelease_moves station resource u)
  | demandReceived station demand => exact heard h (.of_moves fun _ => .refl)
  | retireReceived station slab reason => exact heard h (onRetire_goes slab)
  | slabReceived station slab contents => exact heard h (.of_moves fun u => onSlab_moves slab contents u)
  | helloReceived station supply rate press =>
    exact heard h (.of_moves fun u => onHello_moves station ⟨supply, rate, press⟩ u)
  | checkError kind station resource => exact (checkError_run (moved := True) kind station resource h v).goes
  | formatError kind station resource => exact (formatError_run (moved := True) kind station resource h v).goes
  | lossOfStep => exact (lossOfStep_run (moved := True) h v).goes
  | stuckLine => exact (stuckLine_run (moved := True) h v).goes
  | receiverResync => exact (receiverResync_run (moved := True) h).goes
  | transmitAttempt => exact (transmitAttempt_run (moved := True) h v).goes
  | attemptAbandoned => exact (attemptAbandoned_run (moved := True) h v).goes
  | noticeSent => exact (noticeSent_run (moved := True) h v).goes
  | ownPollWindow slots => exact (ownPollWindow_run (moved := True) slots h v).goes
  | settleTimerExpiry resource => exact (settleTimerExpiry_run (moved := True) resource h v).goes
  | listenInExpiry => exact (listenInExpiry_run h v trivial).goes
  | announceTimerExpiry => exact (announceTimerExpiry_run (moved := True) h v).goes
  | demandRefreshExpiry => exact (demandRefreshExpiry_run (moved := True) h v).goes
  | resumeDwellExpiry => exact resumeDwellExpiry_goes h
  | overrunExpiry => exact overrunExpiry_goes h
  | stopWaitExpiry => exact stopWaitExpiry_goes h
  | purgeTimerExpiry => exact (purgeTimerExpiry_run (moved := True) h v).goes
  | retryTimerExpiry => exact (retryTimerExpiry_run (moved := True) h v).goes
  | peerLapse station => exact peerLapse_goes station h
  | peerAbsent station => exact peerAbsent_goes station h
  | meterPulse meter => exact (meterPulse_run (moved := True) meter h).goes
  | pressDone => exact pressDone_goes h
  | storeWriteDone => exact (storeWriteDone_run (moved := True) h).goes
  | storeWriteTimeout => exact (storeWriteTimeout_run (moved := True) h).goes

end Slot

end Sys2Proof.Machine

namespace Sys2Proof.Machine

open Sys2Proof Sys2Proof.Safety Relation

section Slot
variable {s t : State}

theorem startUp_active (x : Station) (s : State) : (startUp x s).active = Active.reset := by simp [startUp]

theorem startUp_unread (x : Station) (s : State) : unreadOrders (startUp x s) = [] := by
  rw [unreadOrders_eq, startUp_host]
  rfl

theorem startUp_orderFits (x : Station) (s : State) : orderFits (startUp x s) := by
  rw [orderFits, startUp_active]
  exact ⟨rfl, rfl, rfl⟩

theorem startUp_framesWait (x : Station) (s : State) : orderFramesWait (startUp x s) := by
  rw [orderFramesWait, startUp_active, startUp_unread]
  exact ⟨fun aborted => (nomatch aborted), by simp⟩

/-- A reset's part is the one after start-up, or the one before where the command waits. -/
theorem reset_cases {c : Instr} (h : exec c s = .next t) (reset : isReset c = true) : t = s ∨ ∃ x, t = startUp x s := by
  cases c <;> cases reset
  · exact .inr ⟨_, (Host.Outcome.next.inj h).symm⟩
  · obtain rfl := Host.Outcome.next.inj h
    split
    · exact .inr ⟨_, rfl⟩
    · exact .inl rfl

/-- R67 to R90: a step that is no reset's goes by the rules of the slot. -/
theorem exec_keeps_orderFits {c : Instr} (h : exec c s = .next t) (fits : orderFits s) : orderFits t := by
  cases reset : isReset c with
  | false => exact (exec_goes h reset).fits fits
  | true =>
    obtain rfl | ⟨x, rfl⟩ := reset_cases h reset
    · exact fits
    · exact startUp_orderFits ..

theorem muted_stays {c : Instr} (silent : mutedAndSilent s) (other : isReset c = false) (h : exec c s = .next t) :
    mutedAndSilent t := (Proofs.mutedStationStaysSilent.1 c s t silent other h).1

theorem exec_keeps_orderFrames {c : Instr} (h : exec c s = .next t) (fits : orderFits s) (waits : orderFramesWait s) :
    orderFramesWait t := by
  cases reset : isReset c with
  | false =>
    have goes := exec_goes h reset
    refine ⟨fun aborted order => ?_, goes.frames fits waits⟩
    obtain ⟨aborted', order'⟩ | ⟨-, other⟩ | ⟨silent, -⟩ := goes.aborted fits ⟨aborted, order⟩
    · exact muted_stays (waits.1 aborted' order') reset h
    · exact absurd aborted other
    · exact silent
  | true =>
    obtain rfl | ⟨x, rfl⟩ := reset_cases h reset
    · exact waits
    · exact startUp_framesWait ..

theorem tick_keeps_orderFrames (fits : orderFits s) (waits : orderFramesWait s) : orderFramesWait (tick s) := by
  have goes : slotGoes False s (tick s) := tick_goes s
  refine ⟨fun aborted order => ?_, goes.frames fits waits⟩
  obtain ⟨aborted', order'⟩ := (goes.aborted fits ⟨aborted, order⟩).resolve_right id
  have silent := waits.1 aborted' order'
  have run : Run ⟨True, False, none⟩ False s (tick s) := tick_run trivial
  exact (run.voice (.inr silent)).resolve_left id

theorem step_keeps_orderFrames (fits : orderFits s) (waits : orderFramesWait s) (h : step s = .next t) :
    orderFramesWait t := by
  obtain ⟨c, rest, -, ran⟩ | ⟨c, ran, -⟩ | rfl := step_cases h
  · exact exec_keeps_orderFrames ran fits waits
  · exact exec_keeps_orderFrames ran fits waits
  · exact tick_keeps_orderFrames fits waits

theorem step_keeps_orderFits (fits : orderFits s) (h : step s = .next t) : orderFits t := by
  obtain ⟨c, rest, -, ran⟩ | ⟨c, ran, -⟩ | rfl := step_cases h
  · exact exec_keeps_orderFits ran fits
  · exact exec_keeps_orderFits ran fits
  · exact (tick_goes (apart := False) s).fits fits

end Slot

end Sys2Proof.Machine

namespace Sys2Proof.Proofs

open Sys2Proof Sys2Proof.Machine Sys2Proof.Safety

/-- Settles O7: every change of a command keeps the queues; what it does to the slot decides the order frames. -/
theorem stepKeepsQueueLimits : Obligations.StepKeepsQueueLimits :=
  ⟨fun _ _ => step_keeps_queuesBounded, fun _ _ => step_keeps_orderFrames, fun _ _ => step_keeps_transmitOrdered⟩

/-- Settles O15: by what a command does to the slot, each of them issuing at most once. -/
theorem tagAdvancesOnceAnOrder : Obligations.TagAdvancesOnceAnOrder :=
  fun _ _ _ other ran => (exec_goes ran other).tag

end Sys2Proof.Proofs

/-! PROOF. The slab register: its records, the ids issued (O28), room and eviction (O29). -/

namespace Sys2Proof.Machine

open Sys2Proof Sys2Proof.Safety

section Records
variable {s t : State} {id : Nat} {r : SlabRecord}

/-! ### The records of the register -/

/-- R3: the record of an id is the first of the records that bears it. -/
theorem findSlab_eq_find (s : State) (id : Nat) : findSlab s id = (slabRecords s).find? (·.id == id) := by
  unfold findSlab slabRecords
  induction s.register.places with
  | nil => rfl
  | cons o rest ih =>
    cases o with
    | none => simpa using ih
    | some r =>
      rw [List.findSome?_cons, List.filterMap_cons, List.find?_cons, Option.filter_some]
      by_cases mine : r.id == id
      · simp [mine]
      · simpa [mine] using ih

theorem findSlab_eq_none_iff : findSlab s id = none ↔ ∀ r ∈ slabRecords s, r.id ≠ id := by
  simp [findSlab_eq_find]

theorem mem_of_findSlab (found : findSlab s id = some r) : r ∈ slabRecords s ∧ r.id = id := by
  rw [findSlab_eq_find] at found
  exact ⟨List.mem_of_find?_eq_some found, by simpa using List.find?_some found⟩

theorem mem_slabRecords : r ∈ slabRecords s ↔ some r ∈ s.register.places := by simp [slabRecords]

/-- R3: with distinct ids a record is found by its own. -/
theorem findSlab_of_mem (distinct : slabsDistinct s) (mem : r ∈ slabRecords s) : findSlab s r.id = some r := by
  cases found : findSlab s r.id with
  | none => exact absurd rfl (findSlab_eq_none_iff.mp found r mem)
  | some q =>
    obtain ⟨inTable, same⟩ := mem_of_findSlab found
    rw [List.inj_on_of_nodup_map distinct inTable mem same]

theorem slabRecords_congr (same : t.register.places = s.register.places) : slabRecords t = slabRecords s := by
  unfold slabRecords
  rw [same]

theorem slabRecords_mapSlab (id : Nat) (f : SlabRecord → SlabRecord) (s : State) :
    slabRecords (mapSlab id f s) = (slabRecords s).map fun r => if r.id = id then f r else r := by
  unfold slabRecords mapSlab
  simp only [List.filterMap_map, List.map_filterMap]
  exact List.filterMap_congr fun o _ => by cases o <;> rfl

theorem storeSlab_places (id : Nat) (s : State) : (storeSlab id s).register.places = s.register.places := by
  simp

theorem slabRecords_removeSlab (id : Nat) (s : State) :
    slabRecords (removeSlab id s) = (slabRecords s).filter (·.id != id) := by
  unfold slabRecords removeSlab
  simp only [storeSlab_places, List.filterMap_map, List.filter_filterMap]
  exact List.filterMap_congr fun o _ => by cases o <;> rfl

/-- R9: a record put in an empty place. -/
theorem filterMap_set_perm {places : List (Option SlabRecord)} {i : Nat} (free : places[i]? = some none)
    (r : SlabRecord) : ((places.set i (some r)).filterMap fun o => o).Perm (r :: places.filterMap fun o => o) := by
  induction places generalizing i with
  | nil => simp at free
  | cons o rest ih =>
    cases i with
    | zero =>
      obtain rfl : o = none := by simpa using free
      simp
    | succ i =>
      have perm := ih (i := i) (by simpa using free)
      cases o with
      | none => simpa using perm
      | some q => simpa using (perm.cons q).trans (.swap r q _)

theorem slabRecords_length (s : State) : (slabRecords s).length ≤ s.register.places.length :=
  List.length_filterMap_le ..

theorem lowestFree_spec {i : Nat} (h : lowestFree s = some i) : s.register.places[i]? = some none := by
  unfold lowestFree at h
  obtain ⟨lt, isNone, -⟩ := List.findIdx?_eq_some_iff_getElem.mp h
  rw [List.getElem?_eq_getElem lt]
  simpa using isNone

/-- R9: what making a record does to the records: it adds one, where a place is free. -/
theorem makeSlab_records (id : Nat) (c : SlabContents) (s : State) :
    (makeSlab id c s = s ∧ lowestFree s = none) ∨
    ∃ r, r.id = id ∧ r.state = .stock ∧ (slabRecords (makeSlab id c s)).Perm (r :: slabRecords s) := by
  unfold makeSlab
  simp only
  split
  · next none => exact .inl ⟨rfl, none⟩
  · next i free =>
    refine .inr ⟨⟨id, c, .stock, none, add32 s.register.heard 1⟩, rfl, rfl, ?_⟩
    rw [slabRecords_congr (s := { s with register := { s.register with
      places := s.register.places.set i (some ⟨id, c, .stock, none, add32 s.register.heard 1⟩) } }) (by simp)]
    exact filterMap_set_perm (lowestFree_spec free) _

/-! ### The serial counter -/

theorem nextSerial_range (n : Nat) : 1 ≤ nextSerial n ∧ nextSerial n ≤ 2047 := by
  unfold nextSerial
  split <;> omega

/-- R2: from a serial on, 2047 is followed by 1. -/
theorem nextSerial_iterate {n : Nat} (low : 1 ≤ n) (high : n ≤ 2047) (k : Nat) :
    nextSerial^[k] n = serialFrom n k := by
  induction k with
  | zero => simp only [Function.iterate_zero, id, serialFrom]; omega
  | succ k ih =>
    rw [Function.iterate_succ_apply', ih]
    unfold nextSerial
    split
    · next last =>
      simp only [serialFrom] at last ⊢
      omega
    · next more =>
      simp only [serialFrom] at more ⊢
      omega

theorem serialFrom_inj {n i j : Nat} (hi : i < 2047) (hj : j < 2047) (same : serialFrom n i = serialFrom n j) :
    i = j := by
  simp only [serialFrom] at same
  omega

theorem serialFrom_range (n k : Nat) : 1 ≤ serialFrom n k ∧ serialFrom n k ≤ 2047 := by
  simp only [serialFrom]
  omega

/-- R2: the serials tried are distinct, whatever the counter holds. -/
theorem nextSerial_iterate_inj {n i j : Nat} (hi : i < 65) (hj : j < 65)
    (same : nextSerial^[i] n = nextSerial^[j] n) : i = j := by
  by_cases inRange : 1 ≤ n ∧ n ≤ 2047
  · rw [nextSerial_iterate inRange.1 inRange.2, nextSerial_iterate inRange.1 inRange.2] at same
    exact serialFrom_inj (by omega) (by omega) same
  · have later (k : Nat) : nextSerial^[k + 1] n = serialFrom (nextSerial n) k := by
      rw [Function.iterate_succ_apply]
      exact nextSerial_iterate (nextSerial_range n).1 (nextSerial_range n).2 k
    cases i with
    | zero =>
      cases j with
      | zero => rfl
      | succ j =>
        rw [later, Function.iterate_zero, id] at same
        have := serialFrom_range (nextSerial n) j
        omega
    | succ i =>
      cases j with
      | zero =>
        rw [later, Function.iterate_zero, id] at same
        have := serialFrom_range (nextSerial n) i
        omega
      | succ j =>
        rw [later, later] at same
        rw [serialFrom_inj (by omega) (by omega) same]

/-- R2: of 65 serials one is of no record, there being 64 places. -/
theorem free_within_tries (places : s.register.places.length ≤ 64) (n : Nat) :
    ∃ k < 65, findSlab s (s.own * 2048 + nextSerial^[k] n) = none := by
  by_contra! held
  have held (k : Nat) (hk : k < 65) : ∃ r ∈ slabRecords s, r.id = s.own * 2048 + nextSerial^[k] n := by
    obtain ⟨r, found⟩ := Option.ne_none_iff_exists'.mp (held k hk)
    exact ⟨r, mem_of_findSlab found⟩
  have nodup : ((List.range 65).map fun k => s.own * 2048 + nextSerial^[k] n).Nodup :=
    (List.nodup_map_iff_inj_on List.nodup_range).mpr fun i hi j hj same =>
      nextSerial_iterate_inj (n := n) (List.mem_range.mp hi) (List.mem_range.mp hj) (Nat.add_left_cancel same)
  have sub : ((List.range 65).map fun k => s.own * 2048 + nextSerial^[k] n) ⊆ (slabRecords s).map (·.id) := by
    intro x mem
    obtain ⟨k, hk, rfl⟩ := List.mem_map.mp mem
    obtain ⟨r, inTable, same⟩ := held k (List.mem_range.mp hk)
    exact List.mem_map.mpr ⟨r, inTable, same⟩
  have few := (nodup.subperm sub).length_le
  have := slabRecords_length s
  simp only [List.length_map, List.length_range] at few
  omega

theorem serialToIssue_spec (places : s.register.places.length ≤ 64) :
    ∃ k < 65, serialToIssue s = nextSerial^[k] s.register.serial ∧
      (∀ j < k, (findSlab s (s.own * 2048 + nextSerial^[j] s.register.serial)).isSome = true) ∧
      findSlab s (s.own * 2048 + nextSerial^[k] s.register.serial) = none := by
  obtain ⟨k, le, value, held, free⟩ := freeSerial_spec s 65 s.register.serial
  obtain ⟨m, within, none⟩ := free_within_tries places s.register.serial
  have : k < 65 := by
    by_contra spent
    have := held m (by omega)
    simp [none] at this
  exact ⟨k, this, value, held, free this⟩

/-- R2: the id issued is of no record. -/
theorem idToIssue_fresh (places : s.register.places.length ≤ 64) : findSlab s (idToIssue s) = none := by
  obtain ⟨k, -, value, -, free⟩ := serialToIssue_spec places
  rw [idToIssue, value]
  exact free

end Records

end Sys2Proof.Machine

namespace Sys2Proof.Proofs

open Sys2Proof Sys2Proof.Machine Sys2Proof.Safety

theorem isSlabId_iff (n : Nat) : isSlabId n = true ↔ namesSlab n := by
  simp only [isSlabId, namesSlab, Bool.and_eq_true, decide_eq_true_eq]
  constructor
  · rintro ⟨small, serial⟩
    exact ⟨n / 2048, n % 2048, by omega, by omega, by omega, by omega⟩
  · rintro ⟨station, serial, h1, h2, h3, rfl⟩
    omega

theorem isPressId_iff (n : Nat) : isPressId n = true ↔ namesPress n := by
  simp only [isPressId, namesPress, Bool.and_eq_true, decide_eq_true_eq]
  constructor
  · intro h
    exact ⟨n - 65528, by omega, by omega⟩
  · rintro ⟨press, h, rfl⟩
    omega

/-- Settles O28: of 65 serials tried one is of none of the 64 records. -/
theorem issuedIdIsFresh : Obligations.IssuedIdIsFresh := by
  refine ⟨fun n => ⟨isSlabId_iff n, isPressId_iff n⟩, fun s places => ⟨idToIssue_fresh places, fun low high => ?_⟩⟩
  have held (k : Nat) : (findSlab s (s.own * 2048 + nextSerial^[k] s.register.serial)).isSome = true ↔
      ∃ r, some r ∈ s.register.places ∧ r.id = s.own * 2048 + serialFrom s.register.serial k := by
    rw [nextSerial_iterate low high, ← not_iff_not, Bool.not_eq_true, Option.isSome_eq_false_iff, Option.isNone_iff_eq_none,
      findSlab_eq_none_iff]
    simp only [mem_slabRecords]
    push Not
    rfl
  obtain ⟨k, lt, value, before, free⟩ := serialToIssue_spec places
  have next : nextSerial (serialToIssue s) = serialFrom s.register.serial (k + 1) := by
    rw [value, ← nextSerial_iterate low high, Function.iterate_succ_apply']
  refine ⟨k, lt, fun j hj => (held j).mp (before j hj), fun other => ?_, ?_, next, ?_⟩
  · have := (held k).mpr other
    simp [free] at this
  · rw [idToIssue, value, nextSerial_iterate low high]
  · rw [advanceSerial, next]

end Sys2Proof.Proofs

namespace Sys2Proof.Machine

open Sys2Proof Sys2Proof.Safety

section Eviction
variable {s t : State} {id : Nat} {r : SlabRecord}

/-! ### Room and eviction -/

theorem mem_evictionCandidates : r ∈ evictionCandidates s ↔ r ∈ slabRecords s ∧ isEvictable s r = true := by
  simp [evictionCandidates]

/-- R9: a candidate is GONE, or STOCK of another station. -/
theorem evictable_state (h : isEvictable s r = true) : r.state = .gone ∨ (r.state = .stock ∧ s.isOwn r.id = false) := by
  simp only [isEvictable, Bool.and_eq_true, Bool.or_eq_true, beq_iff_eq, Bool.not_eq_true'] at h
  exact h.1.1

theorem evictionChoice_mem (h : evictionChoice s = some r) : r ∈ evictionCandidates s := by
  unfold evictionChoice at h
  split at h
  · next found =>
    obtain rfl := Option.some.inj h
    exact (List.mem_filter.mp (oldestOf_spec found).1).1
  · exact (List.mem_filter.mp (oldestOf_spec h).1).1

theorem evictionChoice_eq_none (h : evictionChoice s = none) : evictionCandidates s = [] := by
  have empty {l : List SlabRecord} (none : oldestOf l = Option.none) : l = [] := by
    cases l with
    | nil => rfl
    | cons a l => exact nomatch none
  unfold evictionChoice at h
  split at h
  · exact nomatch h
  · next noneGone =>
    have gone := List.filter_eq_nil_iff.mp (empty noneGone)
    have stock := List.filter_eq_nil_iff.mp (empty h)
    refine List.eq_nil_iff_forall_not_mem.mpr fun r mem => ?_
    obtain isGone | ⟨isStock, -⟩ := evictable_state (mem_evictionCandidates.mp mem).2
    · exact gone r mem (by simp [isGone])
    · exact stock r mem (by simp [isStock])

/-- R9: the record evicted comes first: a GONE candidate before a STOCK one, the oldest of its kind. -/
theorem evictionChoice_first (h : evictionChoice s = some r) :
    (∀ q ∈ evictionCandidates s, q.state = .gone →
      r.state = .gone ∧ (r.heard < q.heard ∨ (r.heard = q.heard ∧ r.id ≤ q.id))) ∧
    (∀ q ∈ evictionCandidates s, r.state = .stock →
      q.state = .stock ∧ (r.heard < q.heard ∨ (r.heard = q.heard ∧ r.id ≤ q.id))) := by
  unfold evictionChoice at h
  split at h
  · next found =>
    obtain rfl := Option.some.inj h
    obtain ⟨mem, oldest⟩ := oldestOf_spec found
    have gone := by simpa using (List.mem_filter.mp mem).2
    refine ⟨fun q inQ isGone => ⟨gone, oldest q (List.mem_filter.mpr ⟨inQ, by simp [isGone]⟩)⟩, fun q _ stock => ?_⟩
    simp [gone] at stock
  · next noneGone =>
    obtain ⟨mem, oldest⟩ := oldestOf_spec h
    have stock := by simpa using (List.mem_filter.mp mem).2
    have notGone (q : SlabRecord) (inQ : q ∈ evictionCandidates s) : q.state ≠ .gone := fun isGone => by
      have inGone : q ∈ (evictionCandidates s).filter (·.state == .gone) :=
        List.mem_filter.mpr ⟨inQ, by simp [isGone]⟩
      cases l : (evictionCandidates s).filter (·.state == .gone) with
      | nil => simp [l] at inGone
      | cons a rest => simp [l, oldestOf] at noneGone
    refine ⟨fun q inQ isGone => absurd isGone (notGone q inQ), fun q inQ _ => ?_⟩
    have isStock := ((evictable_state (mem_evictionCandidates.mp inQ).2).resolve_left (notGone q inQ)).1
    exact ⟨isStock, oldest q (List.mem_filter.mpr ⟨inQ, by simp [isStock]⟩)⟩

/-- R3: a record that alone bears its id stands in its place. -/
theorem slabPlace_of_alone {i : Nat} (here : s.register.places[i]? = some (some r)) (mine : r.id = id)
    (alone : ∀ k, k ≠ i → ∀ q, s.register.places[k]? = some (some q) → q.id ≠ id) : slabPlace s id = some i := by
  obtain ⟨lt, atI⟩ := List.getElem?_eq_some_iff.mp here
  refine List.findIdx?_eq_some_iff_getElem.mpr ⟨lt, by simp [atI, mine], fun j before => ?_⟩
  have other := alone j before.ne
  rw [List.getElem?_eq_getElem (before.trans lt)] at other
  cases o : s.register.places[j] with
  | none => simp
  | some q => simpa using other q (by rw [o])

theorem storeSlab_of_alone {i : Nat} (here : s.register.places[i]? = some (some r)) (mine : r.id = id)
    (alone : ∀ k, k ≠ i → ∀ q, s.register.places[k]? = some (some q) → q.id ≠ id) :
    storeSlab id s = queueWrite (.slab i) s := by
  rw [storeSlab, slabPlace_of_alone here mine alone]
  rfl

/-- R3: what is done to a record that alone bears its id is done in its place. -/
theorem map_places_of_alone {i : Nat} {f : Option SlabRecord → Option SlabRecord} {new : Option SlabRecord}
    (here : s.register.places[i]? = some (some r)) (done : f (some r) = new) (none : f none = none)
    (others : ∀ k, k ≠ i → ∀ q, s.register.places[k]? = some (some q) → f (some q) = some q) :
    s.register.places.map f = s.register.places.set i new := by
  refine List.ext_getElem? fun k => ?_
  rw [List.getElem?_map, List.getElem?_set]
  split
  · next same =>
    subst same
    obtain ⟨lt, -⟩ := List.getElem?_eq_some_iff.mp here
    rw [here, Option.map_some, done, if_pos lt]
  · next other =>
    cases o : s.register.places[k]? with
    | none => rfl
    | some o' =>
      cases o' with
      | none => simp [none]
      | some q => simp [others k (Ne.symm other) q o]

theorem removeSlab_of_alone {i : Nat} (here : s.register.places[i]? = some (some r)) (mine : r.id = id)
    (alone : ∀ k, k ≠ i → ∀ q, s.register.places[k]? = some (some q) → q.id ≠ id) : removeSlab id s =
      queueWrite (.slab i) { s with register := { s.register with places := s.register.places.set i none } } := by
  have places : s.register.places.map (fun o => o.filter (·.id != id)) = s.register.places.set i none :=
    map_places_of_alone here (by simp [Option.filter_some, mine]) rfl fun k other q found => by
      simp [Option.filter_some, alone k other q found]
  rw [removeSlab]
  simp only [storeSlab_of_alone here mine alone, queueWrite_register, places]
  unfold queueWrite
  simp only
  split <;> rfl

end Eviction

end Sys2Proof.Machine

namespace Sys2Proof.Proofs

open Sys2Proof Sys2Proof.Machine Sys2Proof.Safety

/-- Settles O29: the choice is the oldest of the GONE candidates, else of the STOCK ones. -/
theorem evictionTakesTheOldest : Obligations.EvictionTakesTheOldest := by
  refine ⟨fun s => ⟨fun free => if_pos free, fun full none => ?_, fun full some => ?_, fun r candidate => ?_,
    fun n left => ⟨fun enough => ?_, fun short some => ?_⟩⟩, fun id i r s here mine alone => removeSlab_of_alone here mine alone⟩
  · have choice : evictionChoice s = Option.none := by simp [evictionChoice, none, oldestOf]
    rw [makeRoom, if_neg (by omega), choice]
    rfl
  · obtain ⟨r, choice⟩ := Option.ne_none_iff_exists'.mp (mt evictionChoice_eq_none some)
    refine ⟨r, ⟨evictionChoice_mem choice, evictionChoice_first choice⟩, ?_⟩
    rw [makeRoom, if_neg (by omega), choice]
    rfl
  · obtain ⟨-, may⟩ := mem_evictionCandidates.mp candidate
    refine ⟨(evictable_state may).imp_right fun away => ⟨away.1, ?_⟩, ?_⟩
    · simpa [State.isOwn, originOf] using away.2
    · simp only [isEvictable, isReferenced, Bool.and_eq_true, Bool.not_eq_true', Bool.or_eq_false_iff,
        Option.isNone_iff_eq_none] at may
      obtain ⟨⟨-, unclaimed⟩, unstaged, inactive⟩ := may
      refine ⟨unclaimed, fun p staged => ?_, fun refers => ?_⟩
      · simpa [staged] using unstaged
      · simpa [refers] using inactive
  · cases left with
    | zero => rfl
    | succ left =>
      rw [evictUntil]
      obtain enough | none | spent := enough
      · rw [if_pos enough]
      · have choice : evictionChoice s = Option.none := by simp [evictionChoice, none, oldestOf]
        rw [choice]
        exact ite_self s
      · exact absurd spent (Nat.succ_ne_zero left)
  · obtain ⟨r, choice⟩ := Option.ne_none_iff_exists'.mp (mt evictionChoice_eq_none some)
    refine ⟨r, ⟨evictionChoice_mem choice, evictionChoice_first choice⟩, ?_⟩
    rw [evictUntil, if_neg (by omega), choice]

end Sys2Proof.Proofs

/-! PROOF. The tables keep their sizes, the records their ids and the places their bound (the first part of O8). -/

namespace Sys2Proof.Machine

open Sys2Proof Sys2Proof.Safety Relation

section Tables
variable {k : Scope} {moved : Prop} {s t u : State} {id : Nat}

/-! ### The sizes of the tables -/

theorem makeSlab_places_length (id : Nat) (c : SlabContents) (s : State) :
    (makeSlab id c s).register.places.length = s.register.places.length := by
  unfold makeSlab
  simp only
  split
  · rfl
  · simp

theorem removeSlab_places_length (id : Nat) (s : State) :
    (removeSlab id s).register.places.length = s.register.places.length := by
  simp [removeSlab]

theorem makeRoom_cases (room : makeRoom s = some u) :
    (u = s ∧ 0 < freePlaces s) ∨ ∃ r, freePlaces s = 0 ∧ r ∈ evictionCandidates s ∧ u = removeSlab r.id s := by
  unfold makeRoom at room
  split at room
  · next free => exact .inl ⟨(Option.some.inj room).symm, free⟩
  · next full =>
    obtain ⟨r, choice, rfl⟩ := Option.map_eq_some_iff.mp room
    exact .inr ⟨r, by omega, evictionChoice_mem choice, rfl⟩

theorem makeRoom_places_length (room : makeRoom s = some u) :
    u.register.places.length = s.register.places.length := by
  obtain ⟨rfl, -⟩ | ⟨r, -, -, rfl⟩ := makeRoom_cases room
  · rfl
  · exact removeSlab_places_length ..

theorem evictUntil_places_length (n fuel : Nat) (s : State) :
    (evictUntil n fuel s).register.places.length = s.register.places.length := by
  induction fuel generalizing s with
  | zero => rfl
  | succ fuel ih =>
    unfold evictUntil
    split
    · rfl
    · split
      · exact (ih _).trans (removeSlab_places_length ..)
      · rfl

theorem reserve_cases {n : Nat} (room : reserve n s = some u) : n ≤ placesOnOffer s ∧
    u = { evictUntil n n s with register := { (evictUntil n n s).register with
      reservations := (evictUntil n n s).register.reservations + n } } := by
  unfold reserve at room
  split at room
  · next offered => exact ⟨offered, (Option.some.inj room).symm⟩
  · cases room

/-! ### The copies in the store -/

/-- R183: the copies in the store are as they were; the pending writes and the one going out may differ. -/
def sameCopies (s t : State) : Prop := t.store.slabs = s.store.slabs ∧ t.store.jobs = s.store.jobs

theorem sameCopies.refl (s : State) : sameCopies s s := ⟨rfl, rfl⟩

theorem sameCopies.trans (h : sameCopies s t) (h' : sameCopies t u) : sameCopies s u :=
  ⟨h'.1.trans h.1, h'.2.trans h.2⟩

theorem sameCopies_of_store (h : t.store = s.store) : sameCopies s t := by
  rw [sameCopies, h]
  exact ⟨rfl, rfl⟩

theorem queueWrite_copies (p : StorePlace) (s : State) : sameCopies s (queueWrite p s) := by
  unfold queueWrite
  split <;> exact ⟨rfl, rfl⟩

theorem launchWrite_copies (s : State) : sameCopies s (launchWrite s) := by
  unfold launchWrite
  split <;> exact ⟨rfl, rfl⟩

theorem storeSlab_copies (id : Nat) (s : State) : sameCopies s (storeSlab id s) := by
  unfold storeSlab
  cases slabPlace s id with
  | none => exact .refl s
  | some i => exact queueWrite_copies _ s

theorem removeSlab_copies (id : Nat) (s : State) : sameCopies s (removeSlab id s) := storeSlab_copies id s

theorem makeSlab_copies (id : Nat) (c : SlabContents) (s : State) : sameCopies s (makeSlab id c s) := by
  unfold makeSlab
  simp only
  split
  · exact .refl s
  · exact queueWrite_copies _ _

theorem makeRoom_copies (room : makeRoom s = some u) : sameCopies s u := by
  obtain ⟨rfl, -⟩ | ⟨r, -, -, rfl⟩ := makeRoom_cases room
  · exact .refl _
  · exact removeSlab_copies ..

theorem evictUntil_copies (n fuel : Nat) (s : State) : sameCopies s (evictUntil n fuel s) := by
  induction fuel generalizing s with
  | zero => exact .refl s
  | succ fuel ih =>
    unfold evictUntil
    split
    · exact .refl s
    · split
      · exact (removeSlab_copies ..).trans (ih _)
      · exact .refl s

theorem advanceSerial_copies (s : State) : sameCopies s (advanceSerial s) :=
  .trans (t := { s with register := { s.register with serial := nextSerial (serialToIssue s) } }) (.refl s)
    (queueWrite_copies .serial _)

theorem Move.sameCopies (h : Move k s t) : sameCopies s t := by
  cases h with
  | write p => exact queueWrite_copies p s
  | launch => exact launchWrite_copies s
  | heardSlab c _ room => exact (makeRoom_copies room).trans (makeSlab_copies ..)
  | enteredSlab c room =>
    refine (makeRoom_copies room).trans (.trans ?_ (makeSlab_copies ..))
    exact (sameCopies_of_store (by simp)).trans (advanceSerial_copies _)
  | remnant parent c r =>
    exact (advanceSerial_copies s).trans (makeSlab_copies (idToIssue s) (remnantContents parent c r)
      (dropReservations 1 (advanceSerial s)))
  | reserve room =>
    obtain ⟨-, rfl⟩ := reserve_cases room
    exact evictUntil_copies ..
  | newSettings => exact ⟨rfl, rfl⟩
  | _ => exact sameCopies_of_store (by simp)

theorem Move.tablesSized (h : Move k s t) (sized : tablesSized s) : tablesSized t := by
  obtain ⟨slabs, copies⟩ := h.sameCopies
  have of (p : t.register.places.length = s.register.places.length) (j : t.jobs.length = s.jobs.length)
      (q : t.peers.length = s.peers.length) : Safety.tablesSized t := by
    rw [Safety.tablesSized, slabs, copies, p, j, q]
    exact sized
  cases h with
  | slab => exact of (by simp [mapSlab]) rfl rfl
  | heardSlab c _ room =>
    have length := makeRoom_places_length room
    have frame := makeRoom_frame room
    exact of ((makeSlab_places_length ..).trans length) (by rw [frame]; simp) (by rw [frame]; simp)
  | enteredSlab c room =>
    have length := makeRoom_places_length room
    have frame := makeRoom_frame room
    exact of ((makeSlab_places_length ..).trans (by simpa [advanceSerial] using length)) (by rw [frame]; simp)
      (by rw [frame]; simp)
  | remnant parent c r =>
    exact of ((makeSlab_places_length _ _ (dropReservations 1 (advanceSerial s))).trans
      (by simp [advanceSerial, dropReservations])) (by simp [makeRemnant]) (by simp [makeRemnant])
  | reserve room =>
    obtain ⟨-, rfl⟩ := reserve_cases room
    have frame := evictUntil_frame
    exact of (evictUntil_places_length ..) (by rw [frame]) (by rw [frame])
  | peers same => exact of rfl rfl same
  | jobs same => exact of rfl same rfl
  | unreserve => exact of rfl rfl rfl
  | _ => exact of (by simp) (by simp) (by simp)

theorem abandonWrite_sameShape (s : State) : sameShape s.store (abandonWrite s) := by
  unfold abandonWrite
  split
  · exact ⟨rfl, rfl, rfl⟩
  · split
    · exact ⟨rfl, rfl, rfl⟩
    · exact leave_sameShape ..

theorem startUp_tables (x : Station) (s : State) :
    (startUp x s).register.places = (abandonWrite s).slabs.mapIdx (slabAt (abandonWrite s).slabs) ∧
    (startUp x s).register.reservations = 0 ∧
    (startUp x s).jobs = (jobsUpTo (abandonWrite s).jobs (abandonWrite s).jobs.length).places ∧
    (startUp x s).peers = Peer.resetTable ∧ (startUp x s).store.slabs = (abandonWrite s).slabs ∧
    (startUp x s).store.jobs = (abandonWrite s).jobs := by
  obtain ⟨slabs, jobs⟩ := launchWrite_copies (recovered x s)
  rw [startUp_eq, slabs, jobs]
  simp [recovered, Register.reset]

theorem Run.tablesSized (h : Run k moved s t) (sized : tablesSized s) : tablesSized t := by
  induction h with
  | refl => exact sized
  | tail _ change ih =>
    cases change with
    | move m => exact m.tablesSized ih
    | store kept =>
      obtain ⟨-, slabs, jobs, -⟩ := kept
      rw [Safety.tablesSized, slabs, jobs]
      exact ih
    | erased =>
      simpa [Safety.tablesSized, recordsErased] using ih
    | started x =>
      rename_i u _ _ _ _ _
      obtain ⟨places, -, jobs, peers, slabCopies, jobCopies⟩ := startUp_tables x u
      obtain ⟨-, slabLength, jobLength⟩ := abandonWrite_sameShape u
      obtain ⟨-, -, -, slabs', jobs'⟩ := ih
      rw [Safety.tablesSized, places, jobs, peers, slabCopies, jobCopies]
      simp [slabLength, jobLength, slabs', jobs', jobsUpTo, Peer.resetTable]
    | _ => exact ih

/-! ### Distinct ids -/

theorem slabsDistinct_congr (same : t.register.places = s.register.places) : slabsDistinct t ↔ slabsDistinct s := by
  rw [slabsDistinct, slabsDistinct, slabRecords_congr same]

theorem slabsDistinct_mapSlab {f : SlabRecord → SlabRecord} (keeps : ∀ r, (f r).id = r.id) (id : Nat)
    (distinct : slabsDistinct s) : slabsDistinct (mapSlab id f s) := by
  have same : ((·.id) ∘ fun r : SlabRecord => if r.id = id then f r else r) = (·.id) := funext fun r => by
    simp only [Function.comp_apply]
    split
    · exact keeps r
    · rfl
  rwa [slabsDistinct, slabRecords_mapSlab, List.map_map, same]

theorem slabsDistinct_removeSlab (id : Nat) (distinct : slabsDistinct s) : slabsDistinct (removeSlab id s) := by
  rw [slabsDistinct, slabRecords_removeSlab]
  exact distinct.sublist (List.filter_sublist.map _)

theorem slabsDistinct_makeSlab (c : SlabContents) (fresh : findSlab s id = none) (distinct : slabsDistinct s) :
    slabsDistinct (makeSlab id c s) := by
  obtain ⟨same, -⟩ | ⟨r, mine, -, perm⟩ := makeSlab_records id c s
  · rwa [same]
  · rw [slabsDistinct, (perm.map _).nodup_iff, List.map_cons, List.nodup_cons]
    refine ⟨fun mem => ?_, distinct⟩
    obtain ⟨q, inTable, same⟩ := List.mem_map.mp mem
    exact findSlab_eq_none_iff.mp fresh q inTable (same.trans mine)

theorem slabsDistinct_evictUntil (n fuel : Nat) (distinct : slabsDistinct s) : slabsDistinct (evictUntil n fuel s) := by
  induction fuel generalizing s with
  | zero => exact distinct
  | succ fuel ih =>
    unfold evictUntil
    split
    · exact distinct
    · split
      · exact ih (slabsDistinct_removeSlab _ distinct)
      · exact distinct

theorem findSlab_removeSlab_none {other : Nat} (fresh : findSlab s id = none) :
    findSlab (removeSlab other s) id = none := by
  rw [findSlab_eq_none_iff, slabRecords_removeSlab] at *
  exact fun r mem => fresh r (List.mem_filter.mp mem).1

theorem makeRoom_keeps {keeps : State → Prop} (removed : ∀ id, keeps s → keeps (removeSlab id s))
    (room : makeRoom s = some u) (holds : keeps s) : keeps u := by
  obtain ⟨rfl, -⟩ | ⟨r, -, -, rfl⟩ := makeRoom_cases room
  · exact holds
  · exact removed _ holds

theorem Move.slabsDistinct (h : Move k s t) (places : s.register.places.length ≤ 64) (distinct : slabsDistinct s) :
    slabsDistinct t := by
  cases h with
  | slab keeps => exact slabsDistinct_mapSlab keeps _ distinct
  | heardSlab c fresh room =>
    refine slabsDistinct_makeSlab c ?_ (makeRoom_keeps (fun id => slabsDistinct_removeSlab id) room distinct)
    exact makeRoom_keeps (keeps := fun u => findSlab u _ = none) (fun _ => findSlab_removeSlab_none) room fresh
  | enteredSlab c room =>
    rename_i u
    have same : (advanceSerial (acceptWith 0x01 (.slabId (idToIssue u)) u)).register.places = u.register.places := by
      simp [advanceSerial]
    refine slabsDistinct_makeSlab c ?_ ((slabsDistinct_congr same).mpr
      (makeRoom_keeps (fun id => slabsDistinct_removeSlab id) room distinct))
    rw [findSlab_congr same]
    exact idToIssue_fresh ((makeRoom_places_length room).trans_le places)
  | remnant parent c r =>
    have same : (dropReservations 1 (advanceSerial s)).register.places = s.register.places := by
      simp [advanceSerial, dropReservations]
    refine slabsDistinct_makeSlab (s := dropReservations 1 (advanceSerial s)) _ ?_ ((slabsDistinct_congr same).mpr distinct)
    rw [findSlab_congr same]
    exact idToIssue_fresh places
  | reserve room =>
    obtain ⟨-, rfl⟩ := reserve_cases room
    exact (slabsDistinct_congr rfl).mpr (slabsDistinct_evictUntil _ _ distinct)
  | unreserve => exact distinct
  | _ => exact (slabsDistinct_congr (by simp)).mpr distinct

/-- R184: no id comes back in two places. -/
theorem recovered_slabs_distinct (stored : List (List Byte)) :
    (((stored.mapIdx (slabAt stored)).filterMap fun o => o).map (·.id)).Nodup := by
  have named {i : Nat} {bs : List Byte} {r : SlabRecord} (h : slabAt stored i bs = some r) :
      ∃ q, goodCheck bs = true ∧ slabOfBytes bs = some q ∧ slabBefore stored i q.id = false ∧ r.id = q.id := by
    unfold slabAt at h
    split at h
    · next good =>
      obtain ⟨q, found, rfl⟩ := Option.map_eq_some_iff.mp h
      obtain ⟨found, first⟩ := Option.filter_eq_some_iff.mp found
      exact ⟨q, good, found, by simpa using first, rfl⟩
    · cases h
  rw [List.Nodup, List.pairwise_map, List.pairwise_filterMap, List.pairwise_iff_getElem]
  intro i j hi hj before a ha b hb same
  rw [List.getElem_mapIdx] at ha hb
  obtain ⟨p, good, found, -, mine⟩ := named ha
  obtain ⟨q, -, -, first, mine'⟩ := named hb
  have hi : i < stored.length := by simpa using hi
  have : slabBefore stored j q.id = true := by
    refine List.any_eq_true.mpr ⟨stored[i], List.mem_take_iff_getElem.mpr ⟨i, by omega, rfl⟩, ?_⟩
    simp [good, found, ← mine, ← mine', same]
  simp [first] at this

theorem Run.slabsDistinct (h : Run k moved s t) (sized : Safety.tablesSized s) (distinct : slabsDistinct s) :
    slabsDistinct t := by
  induction h with
  | refl => exact distinct
  | tail before change ih =>
    have places := (Run.tablesSized before sized).1
    cases change with
    | move m => exact m.slabsDistinct places.le ih
    | erased => simp [Safety.slabsDistinct, slabRecords, recordsErased]
    | started x =>
      rw [Safety.slabsDistinct, slabRecords, (startUp_tables x _).1]
      exact recovered_slabs_distinct _
    | _ => exact ih

end Tables

end Sys2Proof.Machine

namespace Sys2Proof.Machine

open Sys2Proof Sys2Proof.Safety Relation

section Places
variable {k : Scope} {moved : Prop} {s t u : State} {id : Nat}

/-! ### Places and reservations -/

/-- R3: one of some records of distinct ids taken out. -/
theorem filter_id_length {records : List SlabRecord} {r : SlabRecord} (distinct : (records.map (·.id)).Nodup)
    (mem : r ∈ records) : (records.filter (·.id != r.id)).length + 1 = records.length := by
  have same : (records.filter (·.id != r.id)).map (·.id) = (records.map (·.id)).erase r.id := by
    rw [distinct.erase_eq_filter, List.filter_map]
    rfl
  have length := congrArg List.length same
  have inIds : r.id ∈ records.map (·.id) := List.mem_map.mpr ⟨r, mem, rfl⟩
  have positive := List.length_pos_of_mem mem
  rw [List.length_map, List.length_erase_of_mem inIds, List.length_map] at length
  omega

theorem removeSlab_reservations (id : Nat) (s : State) :
    (removeSlab id s).register.reservations = s.register.reservations := by simp [removeSlab]

theorem removeSlab_records_length {r : SlabRecord} (distinct : slabsDistinct s) (mem : r ∈ slabRecords s) :
    (slabRecords (removeSlab r.id s)).length + 1 = (slabRecords s).length := by
  rw [slabRecords_removeSlab]
  exact filter_id_length distinct mem

/-- R9: what makes a record a candidate is not the register's. -/
theorem isEvictable_removeSlab (id : Nat) (s : State) : isEvictable (removeSlab id s) = isEvictable s := by
  rw [removeSlab_frame]
  rfl

theorem evictionCandidates_removeSlab (id : Nat) (s : State) :
    evictionCandidates (removeSlab id s) = (evictionCandidates s).filter (·.id != id) := by
  rw [evictionCandidates, isEvictable_removeSlab, slabRecords_removeSlab, evictionCandidates, List.filter_filter,
    List.filter_filter]
  exact List.filter_congr fun r _ => Bool.and_comm ..

theorem candidates_distinct (distinct : slabsDistinct s) : ((evictionCandidates s).map (·.id)).Nodup :=
  distinct.sublist (List.filter_sublist.map _)

/-- R10: an eviction frees a place, and leaves as many on offer. -/
theorem evict_offer {r : SlabRecord} (distinct : slabsDistinct s) (within : placesWithin s)
    (mem : r ∈ evictionCandidates s) : freePlaces (removeSlab r.id s) = freePlaces s + 1 ∧
      placesOnOffer (removeSlab r.id s) = placesOnOffer s ∧ placesWithin (removeSlab r.id s) := by
  have records := removeSlab_records_length distinct (mem_evictionCandidates.mp mem).1
  have candidates := filter_id_length (candidates_distinct distinct) mem
  have reservations := removeSlab_reservations r.id s
  rw [placesWithin] at within
  have free : freePlaces (removeSlab r.id s) = freePlaces s + 1 := by
    rw [freePlaces, freePlaces, reservations]
    omega
  refine ⟨free, ?_, ?_⟩
  · rw [placesOnOffer, placesOnOffer, free, evictionCandidates_removeSlab]
    omega
  · rw [placesWithin, reservations]
    omega

/-- R10: with as many places on offer as are asked for, evictions free them. -/
theorem evictUntil_frees {n fuel : Nat} (distinct : slabsDistinct s) (within : placesWithin s)
    (offered : n ≤ placesOnOffer s) (enough : n ≤ freePlaces s + fuel) :
    n ≤ freePlaces (evictUntil n fuel s) ∧ placesWithin (evictUntil n fuel s) := by
  induction fuel generalizing s with
  | zero => exact ⟨enough, within⟩
  | succ fuel ih =>
    unfold evictUntil
    split
    · next free => exact ⟨free, within⟩
    · next short =>
      split
      · next r choice =>
        obtain ⟨free, offer, within'⟩ := evict_offer distinct within (evictionChoice_mem choice)
        exact ih (slabsDistinct_removeSlab _ distinct) within' (by omega) (by omega)
      · next choice =>
        rw [placesOnOffer, evictionChoice_eq_none choice, List.length_nil] at offered
        omega

/-- R9: room made is a place for one record more. -/
theorem makeRoom_within (room : makeRoom s = some u) (distinct : slabsDistinct s) (within : placesWithin s) :
    (slabRecords u).length + 1 + u.register.reservations ≤ 64 := by
  rw [placesWithin] at within
  obtain ⟨rfl, free⟩ | ⟨r, -, mem, rfl⟩ := makeRoom_cases room
  · rw [freePlaces] at free
    omega
  · have records := removeSlab_records_length distinct (mem_evictionCandidates.mp mem).1
    rw [removeSlab_reservations]
    omega

theorem makeSlab_reservations (id : Nat) (c : SlabContents) (s : State) :
    (makeSlab id c s).register.reservations = s.register.reservations := by
  unfold makeSlab
  simp only
  split
  · rfl
  · simp

theorem makeSlab_within (id : Nat) (c : SlabContents)
    (room : (slabRecords s).length + 1 + s.register.reservations ≤ 64) : placesWithin (makeSlab id c s) := by
  rw [placesWithin, makeSlab_reservations]
  obtain ⟨same, -⟩ | ⟨r, -, -, perm⟩ := makeSlab_records id c s
  · rw [same]
    omega
  · rw [perm.length_eq, List.length_cons]
    omega

theorem placesWithin_congr (places : t.register.places = s.register.places)
    (reservations : t.register.reservations = s.register.reservations) : placesWithin t ↔ placesWithin s := by
  rw [placesWithin, placesWithin, slabRecords_congr places, reservations]

theorem Move.placesWithin (h : Move k s t) (sized : s.register.places.length = 64) (distinct : Safety.slabsDistinct s)
    (within : placesWithin s) : placesWithin t := by
  cases h with
  | slab => rwa [Safety.placesWithin, slabRecords_mapSlab, List.length_map]
  | unreserve n =>
    refine le_trans ?_ within
    exact Nat.add_le_add_left (Nat.sub_le ..) _
  | heardSlab c fresh room => exact makeSlab_within _ c (makeRoom_within room distinct within)
  | enteredSlab c room =>
    rename_i u
    refine makeSlab_within _ c ?_
    rw [slabRecords_congr (s := u) (by simp [advanceSerial])]
    simpa [advanceSerial] using makeRoom_within room distinct within
  | remnant parent c r =>
    have records : slabRecords (dropReservations 1 (advanceSerial s)) = slabRecords s :=
      slabRecords_congr (by simp [advanceSerial, dropReservations])
    have reservations : (dropReservations 1 (advanceSerial s)).register.reservations = s.register.reservations - 1 := by
      simp [advanceSerial, dropReservations]
    rw [Safety.placesWithin] at within ⊢
    rw [makeRemnant, makeSlab_reservations, reservations]
    obtain ⟨same, -⟩ | ⟨q, -, -, perm⟩ := makeSlab_records (idToIssue s) (remnantContents parent c r)
      (dropReservations 1 (advanceSerial s))
    · rw [same, records]
      omega
    · have few := slabRecords_length (makeSlab (idToIssue s) (remnantContents parent c r)
        (dropReservations 1 (advanceSerial s)))
      rw [makeSlab_places_length, perm.length_eq, records, List.length_cons,
        show (dropReservations 1 (advanceSerial s)).register.places = s.register.places by
          simp [advanceSerial, dropReservations], sized] at few
      rw [perm.length_eq, records, List.length_cons]
      omega
  | reserve room =>
    obtain ⟨offered, rfl⟩ := reserve_cases room
    obtain ⟨free, within'⟩ := evictUntil_frees distinct within offered (Nat.le_add_left ..)
    rw [Safety.placesWithin] at within' ⊢
    rw [freePlaces] at free
    change (slabRecords (evictUntil _ _ s)).length + ((evictUntil _ _ s).register.reservations + _) ≤ 64
    omega
  | _ => exact (placesWithin_congr (by simp) (by simp)).mpr within

theorem Run.placesWithin (h : Run k moved s t) (sized : Safety.tablesSized s) (distinct : Safety.slabsDistinct s)
    (within : placesWithin s) : placesWithin t := by
  induction h with
  | refl => exact within
  | tail before change ih =>
    have stillSized := Run.tablesSized before sized
    have stillDistinct := Run.slabsDistinct before sized distinct
    cases change with
    | move m => exact m.placesWithin stillSized.1 stillDistinct ih
    | erased => simp [Safety.placesWithin, slabRecords, recordsErased]
    | started x =>
      rename_i u _ _ _ _
      obtain ⟨places, reservations, -⟩ := startUp_tables x u
      have few := slabRecords_length (startUp x u)
      obtain ⟨-, length, -⟩ := abandonWrite_sameShape u
      rw [places, List.length_mapIdx, length, stillSized.2.2.2.1] at few
      rw [Safety.placesWithin, reservations]
      exact few
    | _ => exact ih

theorem step_keeps_tables (sized : tablesSized s) (distinct : slabsDistinct s) (within : placesWithin s)
    (stepped : step s = .next t) : tablesSized t ∧ slabsDistinct t ∧ placesWithin t :=
  step_keeps (keeps := fun s => tablesSized s ∧ slabsDistinct s ∧ placesWithin s) (fun _ _ h => h) (fun _ _ h => h)
    (fun _ _ run ⟨sized, distinct, within⟩ =>
      ⟨run.tablesSized sized, run.slabsDistinct sized distinct, run.placesWithin sized distinct within⟩)
    ⟨sized, distinct, within⟩ stepped

end Places

end Sys2Proof.Machine

/-! PROOF. The layouts of chapter 12: fields of one, two and four bytes, slab contents, stored records (O5). -/

namespace Sys2Proof.Machine

open Sys2Proof Sys2Proof.Safety

/-! ### Fields -/

theorem u8_toNat (n : Nat) : (u8 n).toNat = n % 256 := BitVec.toNat_ofNat n 8

theorem u8_toNat_of_lt {n : Nat} (h : n < 256) : (u8 n).toNat = n := by
  rw [u8_toNat, Nat.mod_eq_of_lt h]

theorem u8_of_toNat (b : Byte) : u8 b.toNat = b :=
  BitVec.eq_of_toNat_eq (by rw [u8_toNat, Nat.mod_eq_of_lt b.isLt])

theorem byte_lt (b : Byte) : b.toNat < 256 := b.isLt

theorem get16_u8 {n : Nat} (h : n < 65536) : get16 (u8 n) (u8 (n / 256)) = n := by
  rw [get16, u8_toNat, u8_toNat]
  omega

theorem get32_u8 {n : Nat} (h : n < 4294967296) :
    get32 (u8 n) (u8 (n / 256)) (u8 (n / 65536)) (u8 (n / 16777216)) = n := by
  rw [get32, u8_toNat, u8_toNat, u8_toNat, u8_toNat]
  omega

theorem u8_eq_of_mod {n : Nat} {b : Byte} (h : n % 256 = b.toNat) : u8 n = b := by
  apply BitVec.eq_of_toNat_eq
  rw [u8_toNat, h]

theorem le16_get16 (a b : Byte) : le16 (get16 a b) = [a, b] := by
  have ha := byte_lt a
  have hb := byte_lt b
  rw [le16, get16, u8_eq_of_mod (n := a.toNat + 256 * b.toNat) (b := a) (by omega),
    u8_eq_of_mod (n := (a.toNat + 256 * b.toNat) / 256) (b := b) (by omega)]

theorem le32_get32 (a b c d : Byte) : le32 (get32 a b c d) = [a, b, c, d] := by
  have ha := byte_lt a
  have hb := byte_lt b
  have hc := byte_lt c
  have hd := byte_lt d
  unfold le32 get32
  rw [u8_eq_of_mod (b := a) (by omega), u8_eq_of_mod (b := b) (by omega), u8_eq_of_mod (b := c) (by omega),
    u8_eq_of_mod (b := d) (by omega)]

theorem get16_lt (a b : Byte) : get16 a b < 65536 := by
  have ha := byte_lt a
  have hb := byte_lt b
  unfold get16
  omega

theorem le16s_get16s (a b : Byte) : le16s (get16s a b) = [a, b] := by
  have lt := get16_lt a b
  rw [← le16_get16 a b, le16s, get16s]
  congr 1
  split <;> omega

theorem get16s_u8 {n : Int} (low : -32768 ≤ n) (high : n < 32768) :
    get16s (u8 (n % 65536).toNat) (u8 ((n % 65536).toNat / 256)) = n := by
  rw [get16s, get16_u8 (by omega)]
  split <;> omega

theorem u32At_eq (bs : List Byte) (i : Nat) :
    u32At bs i = get32 (bs.getD i 0) (bs.getD (i + 1) 0) (bs.getD (i + 2) 0) (bs.getD (i + 3) 0) := by
  simp only [u32At, u16At, byteAt, get32, Nat.add_assoc i 2 1]
  omega

theorem u16At_lt (bs : List Byte) (i : Nat) : u16At bs i < 65536 := get16_lt ..

theorem byteAt_append_left {bs cs : List Byte} {i : Nat} (h : i < bs.length) : byteAt (bs ++ cs) i = byteAt bs i := by
  rw [byteAt, byteAt, List.getD_append _ _ _ _ h]

theorem byteAt_append_right {bs cs : List Byte} {i : Nat} (h : bs.length ≤ i) :
    byteAt (bs ++ cs) i = byteAt cs (i - bs.length) := by
  rw [byteAt, byteAt, List.getD_append_right _ _ _ _ h]

theorem u16At_append_left {bs cs : List Byte} {i : Nat} (h : i + 1 < bs.length) : u16At (bs ++ cs) i = u16At bs i := by
  rw [u16At, u16At, byteAt_append_left (by omega), byteAt_append_left h]

theorem u16At_append_right {bs cs : List Byte} {i : Nat} (h : bs.length ≤ i) :
    u16At (bs ++ cs) i = u16At cs (i - bs.length) := by
  rw [u16At, u16At, byteAt_append_right h, byteAt_append_right (by omega), Nat.sub_add_comm h]

theorem u32At_append_right {bs cs : List Byte} {i : Nat} (h : bs.length ≤ i) :
    u32At (bs ++ cs) i = u32At cs (i - bs.length) := by
  rw [u32At, u32At, u16At_append_right h, u16At_append_right (by omega), Nat.sub_add_comm h]

theorem le16_length (n : Nat) : (le16 n).length = 2 := by simp [le16]

theorem le32_length (n : Nat) : (le32 n).length = 4 := by simp [le32]

theorem byteAt_u8 (n : Nat) (rest : List Byte) : byteAt ([u8 n] ++ rest) 0 = n % 256 := u8_toNat n

theorem u16At_le16 (n : Nat) (rest : List Byte) : u16At (le16 n ++ rest) 0 = n % 65536 := by
  change (u8 n).toNat + 256 * (u8 (n / 256)).toNat = _
  rw [u8_toNat, u8_toNat]
  omega

theorem u32At_le32 (n : Nat) (rest : List Byte) : u32At (le32 n ++ rest) 0 = n % 4294967296 := by
  change (u8 n).toNat + 256 * (u8 (n / 256)).toNat + 65536 * ((u8 (n / 65536)).toNat + 256 * (u8 (n / 16777216)).toNat) = _
  rw [u8_toNat, u8_toNat, u8_toNat, u8_toNat]
  omega

/-! ### The check -/

theorem withCheck_length (bs : List Byte) : (withCheck bs).length = bs.length + 2 := by simp [withCheck, le16]

/-- R184, R186: bytes written with their check have a good one. -/
theorem goodCheck_withCheck (bs : List Byte) : goodCheck (withCheck bs) = true := by
  have length := withCheck_length bs
  have check : u16At (withCheck bs) bs.length = (checkOf bs).toNat := by
    rw [withCheck, u16At_append_right le_rfl, Nat.sub_self]
    exact get16_u8 (checkOf bs).isLt
  rw [goodCheck, length, Nat.add_sub_cancel, check]
  simp [withCheck]

/-- What stands before the check is read as it was written. -/
theorem byteAt_withCheck {bs : List Byte} {i : Nat} (h : i < bs.length) : byteAt (withCheck bs) i = byteAt bs i :=
  byteAt_append_left h

theorem u16At_withCheck {bs : List Byte} {i : Nat} (h : i + 1 < bs.length) : u16At (withCheck bs) i = u16At bs i :=
  u16At_append_left h

/-! ### Stored job records -/

theorem JobRecord.stored_length (j : JobRecord) : j.stored.length = 65 := by
  simp [JobRecord.stored, withCheck, le16_length, le32_length]

theorem flagBits (a b c d e : Bool) :
    let n := bitIf a 1 + bitIf b 2 + bitIf c 4 + bitIf d 8 + bitIf e 16
    n < 256 ∧ (n / 1 % 2 == 1) = a ∧ (n / 2 % 2 == 1) = b ∧ (n / 4 % 2 == 1) = c ∧ (n / 8 % 2 == 1) = d ∧
      (n / 16 % 2 == 1) = e := by
  revert a b c d e
  decide

/-- 12: the flags of a stored job record, one bit each. -/
theorem storedFlags_bits (j : JobRecord) :
    j.storedFlags < 256 ∧ (j.storedFlags / 1 % 2 == 1) = j.closed ∧ (j.storedFlags / 2 % 2 == 1) = j.estimate.isSome ∧
      (j.storedFlags / 4 % 2 == 1) = j.overEstimate ∧ (j.storedFlags / 8 % 2 == 1) = j.saturated ∧
      (j.storedFlags / 16 % 2 == 1) = j.damaged := flagBits ..

/-- 12, R150: a job record read back, its number and its estimate as their bytes carry them. -/
theorem jobOfBytes_stored {j : JobRecord} (counts : ∀ n ∈ j.counts, n ≤ max32) : jobOfBytes j.stored =
    if j.number % 65536 = 0 then none
    else some { j with
      number := j.number % 65536, estimate := j.estimate.map (· % 4294967296), inUse := 0 } := by
  obtain ⟨flags, closed, present, dearer, saturated, damaged⟩ := storedFlags_bits j
  have fits {n : Nat} (h : n ≤ max32) : n % 4294967296 = n := Nat.mod_eq_of_lt (by rw [max32] at h; omega)
  simp only [JobRecord.counts, List.mem_cons, List.not_mem_nil, or_false, forall_eq_or_imp, forall_eq] at counts
  have money : (if j.estimate.isSome then some (j.estimate.getD 0 % 4294967296) else none) =
      j.estimate.map (· % 4294967296) := by
    cases j.estimate <;> rfl
  simp only [jobOfBytes, JobRecord.stored, withCheck, List.append_assoc, byteAt_append_right,
    u32At_append_right, le16_length, le32_length, List.length_singleton, byteAt_u8, u16At_le16, u32At_le32,
    Nat.reduceLeDiff, Nat.reduceSub, le_refl, Nat.sub_self, Nat.mod_eq_of_lt flags, closed, present, dearer, saturated, damaged,
    money, fits, counts]

/-! ### Slab contents -/

/-- 12: the defect at an offset. -/
def defectAt (bs : List Byte) (i : Nat) : Defect :=
  defectOf (u16At bs i) (u16At bs (i + 2)) (u16At bs (i + 4)) (u16At bs (i + 6))

theorem defect_bytes_length (d : Defect) : d.bytes.length = 8 := by simp [Defect.bytes, le16_length]

theorem defects_length (ds : List Defect) : (ds.flatMap Defect.bytes).length = 8 * ds.length := by
  induction ds with
  | nil => rfl
  | cons d rest ih =>
    rw [List.flatMap_cons, List.length_append, defect_bytes_length, ih, List.length_cons]
    omega

theorem defectAt_bytes {d : Defect} (wf : d.wellFormed = true) (rest : List Byte) : defectAt (d.bytes ++ rest) 0 = d := by
  simp only [Defect.wellFormed, isU16, Bool.and_eq_true, decide_eq_true_eq] at wf
  obtain ⟨⟨⟨x, y⟩, w⟩, h⟩ := wf
  have mod {n : Nat} (h : n < 65536) : n % 65536 = n := Nat.mod_eq_of_lt h
  simp only [defectAt, Defect.bytes, List.append_assoc, u16At_append_right, le16_length, u16At_le16, Nat.reduceAdd,
    Nat.reduceLeDiff, Nat.reduceSub, le_refl, Nat.sub_self, mod y, mod w, mod h, Nat.mod_eq_of_lt x]
  obtain ⟨kind, dx, dy, dw, dh⟩ := d
  cases kind with
  | void =>
    simp only [defectOf, Defect.mk.injEq, and_true]
    refine ⟨if_pos ?_, ?_⟩ <;> simp only at x ⊢ <;> omega
  | fissure =>
    simp only [defectOf, Defect.mk.injEq, and_true]
    refine ⟨if_neg ?_, ?_⟩ <;> simp only at x ⊢ <;> omega

theorem defectAt_append_right {bs cs : List Byte} {i : Nat} (h : bs.length ≤ i) :
    defectAt (bs ++ cs) i = defectAt cs (i - bs.length) := by
  rw [defectAt, defectAt, u16At_append_right h, u16At_append_right (by omega), u16At_append_right (by omega),
    u16At_append_right (by omega), Nat.sub_add_comm h, Nat.sub_add_comm h, Nat.sub_add_comm h]

/-- 12: the defects read back, one after the other. -/
theorem defects_read {ds : List Defect} (wf : ∀ d ∈ ds, d.wellFormed = true) (rest : List Byte) :
    (List.range ds.length).map (fun i => defectAt (ds.flatMap Defect.bytes ++ rest) (8 * i)) = ds := by
  induction ds with
  | nil => rfl
  | cons d ds ih =>
    rw [List.length_cons, List.range_succ_eq_map, List.map_cons, List.map_map, List.flatMap_cons, List.append_assoc,
      Nat.mul_zero, defectAt_bytes (wf d (by simp))]
    congr 1
    refine Eq.trans (List.map_congr_left fun i _ => ?_) (ih fun x mem => wf x (by simp [mem]))
    rw [Function.comp_apply, defectAt_append_right (by rw [defect_bytes_length]; omega), defect_bytes_length]
    rfl

theorem contents_wellFormed_iff (c : SlabContents) : c.wellFormed = true ↔
    c.cls < 8 ∧ c.thickness < 256 ∧ c.width < 65536 ∧ c.height < 65536 ∧ c.price < 65536 ∧
      (∀ p, c.parent = some p → 0 < p ∧ p < 65536) ∧ c.defects.length ≤ 6 ∧ ∀ d ∈ c.defects, d.wellFormed = true := by
  unfold SlabContents.wellFormed
  cases c.parent with
  | none => simp [isU8, isU16, and_assoc]
  | some p => simp [isU8, isU16, and_assoc]

/-- R3: contents in range have a layout. -/
theorem wellFormed_of_inRange {least : Nat} {c : SlabContents} (h : contentsInRange least c = true) :
    c.wellFormed = true := by
  simp only [contentsInRange, Bool.and_eq_true, decide_eq_true_eq, List.all_eq_true] at h
  obtain ⟨⟨⟨⟨⟨⟨⟨⟨⟨⟨cls, -⟩, thickness⟩, -⟩, width⟩, -⟩, height⟩, price⟩, parent⟩, few⟩, defects⟩ := h
  refine (contents_wellFormed_iff c).mpr ⟨by omega, by omega, by omega, by omega, by omega, fun p mine => ?_, few, fun d mem => ?_⟩
  · simp only [mine, Option.all_some, isSlabId, Bool.and_eq_true, decide_eq_true_eq] at parent
    omega
  · have fits := defects d mem
    simp only [defectFits, Bool.and_eq_true, decide_eq_true_eq] at fits
    simp only [Defect.wellFormed, isU16, Bool.and_eq_true, decide_eq_true_eq]
    omega

theorem contentsBytes_length (id : Nat) (c : SlabContents) :
    (contentsBytes id c).length = 12 + 8 * c.defects.length := by
  simp only [contentsBytes, List.length_append, defects_length, le16_length, List.length_cons, List.length_nil]

/-- 12: the class byte. -/
theorem classByte (cls n : Nat) : (cls % 8 + 16 * (n % 8)) % 256 = cls % 8 + 16 * (n % 8) := by omega

/-- 12: slab contents are read back as they were written, whatever stands after them. -/
theorem contentsOfBytes_contentsBytes {id : Nat} {c : SlabContents} (short : id < 65536) (wf : c.wellFormed = true)
    (rest : List Byte) : contentsOfBytes (contentsBytes id c ++ rest) = (id, c) := by
  obtain ⟨cls, thickness, width, height, price, parent, few, defects⟩ := (contents_wellFormed_iff c).mp wf
  have mod {n : Nat} (h : n < 65536) : n % 65536 = n := Nat.mod_eq_of_lt h
  have cells (a b : Nat) : [u8 a, u8 b] = [u8 a] ++ [u8 b] := rfl
  have parentShort : c.parent.getD 0 < 65536 := by
    cases e : c.parent with
    | none => simp
    | some p => exact (parent p e).2
  have parentRead : (if c.parent.getD 0 = 0 then none else some (c.parent.getD 0)) = c.parent := by
    cases e : c.parent with
    | none => rfl
    | some p => exact if_neg (parent p e).1.ne'
  have count : (c.cls % 8 + 16 * (c.defects.length % 8)) / 16 % 8 = c.defects.length := by omega
  have body : contentsBytes id c ++ rest = (le16 id ++ ([u8 (c.cls % 8 + 16 * (c.defects.length % 8))] ++
      ([u8 c.thickness] ++ (le16 c.width ++ (le16 c.height ++ (le16 c.price ++ le16 (c.parent.getD 0))))))) ++
      (c.defects.flatMap Defect.bytes ++ rest) := by
    simp only [contentsBytes, cells, List.append_assoc]
  have head : (le16 id ++ ([u8 (c.cls % 8 + 16 * (c.defects.length % 8))] ++ ([u8 c.thickness] ++ (le16 c.width ++
      (le16 c.height ++ (le16 c.price ++ le16 (c.parent.getD 0))))))).length = 12 := by simp [le16_length]
  have defectsRead : (List.range (min c.defects.length 6)).map
      (fun i => defectAt (contentsBytes id c ++ rest) (12 + 8 * i)) = c.defects := by
    rw [Nat.min_eq_left few]
    refine (List.map_congr_left fun i _ => ?_).trans (defects_read defects rest)
    rw [body, defectAt_append_right (by rw [head]; omega), head, Nat.add_sub_cancel_left]
  have offsets : (fun i => defectAt (contentsBytes id c ++ rest) (12 + 8 * i)) = fun i =>
      defectOf (u16At (contentsBytes id c ++ rest) (12 + 8 * i)) (u16At (contentsBytes id c ++ rest) (14 + 8 * i))
        (u16At (contentsBytes id c ++ rest) (16 + 8 * i)) (u16At (contentsBytes id c ++ rest) (18 + 8 * i)) :=
    funext fun i => by rw [defectAt, show 12 + 8 * i + 2 = 14 + 8 * i by omega,
      show 12 + 8 * i + 4 = 16 + 8 * i by omega, show 12 + 8 * i + 6 = 18 + 8 * i by omega]
  have classRead : byteAt (contentsBytes id c ++ rest) 2 = c.cls % 8 + 16 * (c.defects.length % 8) := by
    simp only [contentsBytes, cells, List.append_assoc, byteAt_append_right, le16_length, le_refl, Nat.sub_self,
      byteAt_u8, classByte]
  rw [offsets] at defectsRead
  rw [contentsOfBytes]
  simp only [classRead, count, defectsRead]
  simp only [contentsBytes, cells, List.append_assoc, byteAt_append_right, u16At_append_right, le16_length,
    List.length_singleton, byteAt_u8, u16At_le16, Nat.reduceLeDiff, Nat.reduceSub, le_refl, Nat.sub_self,
    Nat.mod_eq_of_lt short, Nat.mod_eq_of_lt thickness, mod width, mod height, mod price, mod parentShort, parentRead]
  congr 2
  omega

/-! ### Stored slab records -/

theorem slabState_read (st : SlabState) (rest : List Byte) : slabStateOf (byteAt ([u8 st.code] ++ rest) 0) = st := by
  rw [byteAt_u8]
  cases st <;> rfl

theorem u16At_erased {n : Nat} (h : 2 ≤ n) : u16At (erasedPlace n) 0 = 0 := by
  have zero (i : Nat) : byteAt (List.replicate n 0) i = 0 := by
    rw [byteAt, List.getD_eq_getElem?_getD, List.getElem?_replicate]
    split <;> rfl
  rw [erasedPlace, u16At_withCheck (by rw [List.length_replicate]; omega), u16At, zero, zero]

theorem erased_empty {n : Nat} (h : 2 ≤ n) : slabOfBytes (erasedPlace n) = none ∧ jobOfBytes (erasedPlace n) = none := by
  simp [slabOfBytes, contentsOfBytes, jobOfBytes, u16At_erased h]

end Sys2Proof.Machine

namespace Sys2Proof.Proofs

open Sys2Proof Sys2Proof.Machine Sys2Proof.Safety

/-- Settles O5: every field stands at its offset in the bytes written, before the check. -/
theorem storedRecordsComeBack : Obligations.StoredRecordsComeBack := by
  refine ⟨fun r isId inRange => ?_, fun j isNumber counts estimate => ⟨j.stored_length, goodCheck_withCheck _, ?_⟩,
    ⟨goodCheck_withCheck _, ?_⟩, ⟨goodCheck_withCheck _, ?_⟩⟩
  · have wf := wellFormed_of_inRange inRange
    have few := ((contents_wellFormed_iff _).mp wf).2.2.2.2.2.2.1
    have length := contentsBytes_length r.id r.contents
    have short : r.id < 65536 := by
      simp only [isSlabId, Bool.and_eq_true, decide_eq_true_eq] at isId
      omega
    have positive : r.id ≠ 0 := by
      rintro none
      simp [isSlabId, none] at isId
    have padded : (contentsBytes r.id r.contents ++
        List.replicate (60 - (contentsBytes r.id r.contents).length) 0).length = 60 := by
      rw [List.length_append, List.length_replicate]
      omega
    refine ⟨?_, goodCheck_withCheck _, ?_⟩
    · simp only [slabPlaceBytes, SlabRecord.stored, withCheck_length, List.length_append, List.length_replicate,
        List.length_singleton, length]
      omega
    · have state : slabStateOf (byteAt (slabPlaceBytes (some r)) 60) = r.state := by
        rw [slabPlaceBytes, SlabRecord.stored, withCheck, List.append_assoc, byteAt_append_right]
        · rw [padded, Nat.sub_self]
          exact slabState_read ..
        · rw [padded]
      have contents : contentsOfBytes (slabPlaceBytes (some r)) = (r.id, r.contents) := by
        rw [slabPlaceBytes, SlabRecord.stored, withCheck, List.append_assoc, List.append_assoc, List.append_assoc]
        exact contentsOfBytes_contentsBytes short wf _
      rw [slabOfBytes, contents]
      simp only [positive, if_false, state]
  · have read := jobOfBytes_stored counts
    simp only [isJobNumber, Bool.and_eq_true, decide_eq_true_eq] at isNumber
    have money : j.estimate.map (· % 4294967296) = j.estimate := by
      cases e : j.estimate with
      | none => rfl
      | some n =>
        have := estimate n (by simp [e])
        rw [max32] at this
        rw [Option.map_some, Nat.mod_eq_of_lt (by omega)]
    rw [Nat.mod_eq_of_lt (by omega), if_neg (by omega), money] at read
    exact read
  · exact (erased_empty (by omega)).1
  · exact (erased_empty (by omega)).2

end Sys2Proof.Proofs

/-! PROOF. The cost table and its copies in the store (the second part of O8). -/

namespace Sys2Proof.Machine

open Sys2Proof Sys2Proof.Safety Relation

/-! ### Copies -/

/-- R150: the copy of a sound record holds. -/
theorem copyHolds_place {o : Option JobRecord} (sound : ∀ j, o = some j → recordSound j) :
    copyHolds (jobPlaceBytes o) := by
  intro _ q found
  cases o with
  | none =>
    rw [jobPlaceBytes, (erased_empty (by omega)).2] at found
    cases found
  | some j =>
    obtain ⟨-, counts, total⟩ := sound j rfl
    rw [jobPlaceBytes, jobOfBytes_stored counts] at found
    split at found
    · cases found
    · obtain rfl := Option.some.inj found
      exact total

theorem jobsSound_iff (s : State) : jobsSound s ↔ jobTableSound s.jobs ∧ copiesHold s.store := by
  simp only [jobsSound, jobTableSound, copiesHold, and_assoc]

theorem recordSound_getD {jobs : List (Option JobRecord)} (sound : jobTableSound jobs) (i : Nat) :
    ∀ j, jobs.getD i none = some j → recordSound j := by
  intro j found
  rw [List.getD_eq_getElem?_getD] at found
  cases place : jobs[i]? with
  | none => simp [place] at found
  | some o =>
    rw [place, Option.getD_some] at found
    exact sound.2 j (found ▸ List.mem_of_getElem? place)

section Jobs
variable {k : Scope} {moved : Prop} {s t u : State}

/-- R183: the write in flight is as it was. -/
theorem queueWrite_inFlight (p : StorePlace) (s : State) : (queueWrite p s).store.inFlight = s.store.inFlight := by
  unfold queueWrite
  split <;> rfl

theorem storeSlab_inFlight (id : Nat) (s : State) : (storeSlab id s).store.inFlight = s.store.inFlight := by
  unfold storeSlab
  cases slabPlace s id with
  | none => rfl
  | some i => exact queueWrite_inFlight _ s

theorem removeSlab_inFlight (id : Nat) (s : State) : (removeSlab id s).store.inFlight = s.store.inFlight :=
  storeSlab_inFlight id s

theorem makeSlab_inFlight (id : Nat) (c : SlabContents) (s : State) :
    (makeSlab id c s).store.inFlight = s.store.inFlight := by
  unfold makeSlab
  simp only
  split
  · rfl
  · exact queueWrite_inFlight _ _

theorem advanceSerial_inFlight (s : State) : (advanceSerial s).store.inFlight = s.store.inFlight :=
  queueWrite_inFlight _ _

theorem makeRoom_inFlight (room : makeRoom s = some u) : u.store.inFlight = s.store.inFlight :=
  makeRoom_keeps (keeps := fun u => u.store.inFlight = s.store.inFlight)
    (fun id same => (removeSlab_inFlight id _).trans same) room rfl

theorem evictUntil_inFlight (n fuel : Nat) (s : State) : (evictUntil n fuel s).store.inFlight = s.store.inFlight := by
  induction fuel generalizing s with
  | zero => rfl
  | succ fuel ih =>
    unfold evictUntil
    split
    · rfl
    · split
      · exact (ih _).trans (removeSlab_inFlight ..)
      · rfl

theorem Move.inFlight (h : Move k s t) : t = launchWrite s ∨ t.store.inFlight = s.store.inFlight := by
  cases h with
  | launch => exact .inl rfl
  | write p => exact .inr (queueWrite_inFlight p s)
  | heardSlab c _ room => exact .inr ((makeSlab_inFlight ..).trans (makeRoom_inFlight room))
  | enteredSlab c room =>
    refine .inr ((makeSlab_inFlight ..).trans ((advanceSerial_inFlight _).trans ?_))
    simpa using makeRoom_inFlight room
  | remnant parent c r =>
    exact .inr ((makeSlab_inFlight _ _ (dropReservations 1 (advanceSerial s))).trans (advanceSerial_inFlight s))
  | reserve room =>
    obtain ⟨-, rfl⟩ := reserve_cases room
    exact .inr (evictUntil_inFlight ..)
  | newSettings => exact .inr rfl
  | _ => exact .inr (by simp)

/-- R183: what goes out for a job place is the copy of its record. -/
theorem launchWrite_copiesHold (sound : jobTableSound s.jobs) (copies : copiesHold s.store) :
    copiesHold (launchWrite s).store := by
  obtain ⟨same, -⟩ | ⟨p, rest, -, -, launched⟩ := launchWrite_cases s
  · rwa [same]
  · rw [launched]
    refine ⟨copies.1, fun w i inFlight isJob => ?_⟩
    obtain rfl := Option.some.inj inFlight
    obtain rfl : p = .job i := isJob
    exact copyHolds_place (recordSound_getD sound i)

theorem Move.jobTable (h : Move k s t) (sound : jobTableSound s.jobs) : jobTableSound t.jobs := by
  cases h with
  | jobs _ keeps => exact keeps sound
  | heardSlab c _ room =>
    rw [makeRoom_frame room]
    simpa using sound
  | enteredSlab c room =>
    rw [makeRoom_frame room]
    simpa using sound
  | reserve room =>
    rw [reserve_frame room]
    exact sound
  | _ => simpa [makeRemnant] using sound

theorem Move.jobsSound (h : Move k s t) (sound : jobsSound s) : jobsSound t := by
  rw [jobsSound_iff] at *
  refine ⟨h.jobTable sound.1, ?_⟩
  obtain rfl | same := h.inFlight
  · exact launchWrite_copiesHold sound.1 sound.2
  · rw [copiesHold, h.sameCopies.2, same]
    exact sound.2

/-! ### Recovery -/

theorem abandonWrite_copies (copies : copiesHold s.store) : ∀ bytes ∈ (abandonWrite s).jobs, copyHolds bytes := by
  unfold abandonWrite
  split
  · exact copies.1
  · next w inFlight =>
    split
    · exact copies.1
    · exact leave_copies _ copies.1 fun i job => copies.2 w i inFlight job

theorem jobOfBytes_counts {bs : List Byte} {j : JobRecord} (h : jobOfBytes bs = some j) :
    j.inUse = 0 ∧ ∀ n ∈ j.counts, n ≤ max32 := by
  unfold jobOfBytes at h
  simp only at h
  split at h
  · cases h
  · obtain rfl := Option.some.inj h
    refine ⟨rfl, ?_⟩
    have small (i : Nat) : u32At bs i ≤ max32 := by
      have low := u16At_lt bs i
      have high := u16At_lt bs (i + 2)
      rw [u32At, max32]
      omega
    simp only [JobRecord.counts, List.mem_cons, List.not_mem_nil, or_false]
    rintro n (rfl | rfl | rfl | rfl | rfl | rfl | rfl | rfl | rfl | rfl | rfl | rfl | rfl | rfl) <;> exact small _

theorem damagedJob_sound (number : Nat) : recordSound (damagedJob number) := by
  refine ⟨by simp [damagedJob], ?_, by simp [damagedJob, totalHolds]⟩
  simp [damagedJob, JobRecord.counts]

theorem getD_of_lt {stored : List (List Byte)} {i : Nat} (h : i < stored.length) : stored.getD i [] = stored[i] := by
  rw [List.getD_eq_getElem?_getD, List.getElem?_eq_getElem h]
  rfl

/-- R184: what a job record comes back from: a good copy that is the first of its number, or a damaged one that is the
first of its, no good copy being of that number. -/
theorem jobAt_cases {stored : List (List Byte)} {n i : Nat} {j : JobRecord} (hi : i < stored.length)
    (h : jobAt stored n i stored[i] = some j) :
    (goodCheck stored[i] = true ∧ jobOfBytes stored[i] = some j ∧ jobBefore stored i j.number = false) ∨
    (j = damagedJob (u16At stored[i] 0) ∧ jobDamaged stored i = true) := by
  unfold jobAt at h
  split at h
  · next damaged =>
    obtain rfl := Option.some.inj h
    exact .inr ⟨rfl, damaged.2⟩
  · unfold goodJobAt at h
    split at h
    · next good =>
      obtain ⟨found, first⟩ := Option.filter_eq_some_iff.mp h
      exact .inl ⟨good, found, by simpa using first⟩
    · cases h

theorem jobNumbers_of_good {stored : List (List Byte)} {i : Nat} {j : JobRecord} (hi : i < stored.length)
    (good : goodCheck stored[i] = true) (found : jobOfBytes stored[i] = some j) : jobNumbers stored j.number = true :=
  List.any_eq_true.mpr ⟨stored[i], List.getElem_mem hi, by simp [good, found]⟩

/-- R184: no number comes back in two places. -/
theorem recovered_jobs_distinct {stored : List (List Byte)} {n i k : Nat} {p q : JobRecord} (before : i < k)
    (hk : k < stored.length) (first : jobAt stored n i (stored[i]'(before.trans hk)) = some p)
    (second : jobAt stored n k stored[k] = some q) : p.number ≠ q.number := by
  intro same
  have hi := before.trans hk
  obtain ⟨good, found, -⟩ | ⟨rfl, damaged⟩ := jobAt_cases hi first
  · have named := jobNumbers_of_good hi good found
    obtain ⟨-, -, alone⟩ | ⟨rfl, damaged⟩ := jobAt_cases hk second
    · have : jobBefore stored k q.number = true := by
        refine List.any_eq_true.mpr ⟨stored[i], List.mem_take_iff_getElem.mpr ⟨i, by omega, rfl⟩, ?_⟩
        simp [good, found, same]
      simp [alone] at this
    · have none := (jobDamaged_bad damaged).2.2
      rw [getD_of_lt hk] at none
      rw [same] at named
      exact absurd (named.symm.trans none) (by simp)
  · obtain ⟨bad, -, none⟩ := jobDamaged_bad damaged
    rw [getD_of_lt hi] at bad none
    obtain ⟨good, found, -⟩ | ⟨rfl, later⟩ := jobAt_cases hk second
    · have named := jobNumbers_of_good hk good found
      rw [← same] at named
      exact absurd (named.symm.trans none) (by simp)
    · simp only [jobDamaged, Bool.and_eq_true, List.all_eq_true, List.mem_range, Bool.or_eq_true, bne_iff_ne] at later
      have other := later.2 i before
      rw [getD_of_lt hi, getD_of_lt hk, bad] at other
      exact other.resolve_left (by simp) same

theorem recovered_jobs_sound {stored : List (List Byte)} (copies : ∀ bytes ∈ stored, copyHolds bytes) (n : Nat) :
    jobTableSound (stored.mapIdx (jobAt stored n)) := by
  refine ⟨?_, fun j mem => ?_⟩
  · rw [List.Nodup, List.pairwise_map, List.pairwise_filterMap, List.pairwise_iff_getElem]
    intro i k hi hk before p hp q hq
    rw [List.getElem_mapIdx] at hp hq
    exact recovered_jobs_distinct before (by simpa using hk) hp hq
  · obtain ⟨i, hi, found⟩ := List.mem_mapIdx.mp mem
    obtain ⟨good, read, -⟩ | ⟨rfl, -⟩ := jobAt_cases hi found
    · obtain ⟨unused, counts⟩ := jobOfBytes_counts read
      exact ⟨fun used => absurd used (by omega), counts, copies _ (List.getElem_mem hi) good j read⟩
    · exact damagedJob_sound _

theorem recovered_jobsSound (x : Station) (copies : copiesHold s.store) : jobsSound (recovered x s) := by
  have held := abandonWrite_copies copies
  exact (jobsSound_iff _).mpr ⟨recovered_jobs_sound held _, held, fun _ _ none => nomatch none⟩

theorem Run.jobsSound (h : Run k moved s t) (sound : jobsSound s) : jobsSound t := by
  induction h with
  | refl => exact sound
  | tail _ change ih =>
    have ⟨table, copies⟩ := (jobsSound_iff _).mp ih
    cases change with
    | move m => exact m.jobsSound ih
    | store kept => exact (jobsSound_iff _).mpr ⟨table, kept.2.2.2 copies⟩
    | erased =>
      refine (jobsSound_iff _).mpr ⟨⟨?_, fun j mem => ?_⟩, copies⟩
      · simp [recordsErased]
      · simp [recordsErased] at mem
    | started x =>
      rw [startUp_eq]
      have recoveredSound := (jobsSound_iff _).mp (recovered_jobsSound x copies)
      refine (jobsSound_iff _).mpr ⟨by simpa using recoveredSound.1, launchWrite_copiesHold recoveredSound.1 recoveredSound.2⟩
    | _ => exact ih

end Jobs

end Sys2Proof.Machine

namespace Sys2Proof.Proofs

open Sys2Proof Sys2Proof.Machine Sys2Proof.Safety

/-- Settles O8: fresh ids and the places on offer keep the register; a launched copy is that of a sound record. -/
theorem stepKeepsTheTablesSound : Obligations.StepKeepsTheTablesSound :=
  ⟨fun _ _ => step_keeps_tables, fun _ _ sound stepped =>
    step_keeps (keeps := jobsSound) (fun _ _ h => h) (fun _ _ h => h) (fun _ _ run h => run.jobsSound h) sound stepped⟩

end Sys2Proof.Proofs

/-! PROOF. A plan in work keeps its slab CUTTING and its claim HELD (O11). -/

namespace Sys2Proof.Machine

open Sys2Proof Sys2Proof.Safety Relation

/-- R65, R81: a slab's record stands CUTTING and its claim HELD. -/
def cutHeld (id : Nat) (s : State) : Prop :=
  (∃ r ∈ slabRecords s, r.id = id ∧ r.state = .cutting) ∧
    ∃ e ∈ s.claims.entries, e.resource = id ∧ e.stage = .held

/-- R3, R22: what the lookups of a slab and of its claim rest on. -/
def lookupsSound (s : State) : Prop := tablesSized s ∧ slabsDistinct s ∧ claimsSound s

section Kept
variable {k : Scope} {moved : Prop} {s t u : State} {id : Nat}

theorem claimOn_of_mem (sound : claimsSound s) {e : ClaimEntry} (mem : e ∈ s.claims.entries) :
    claimOn s e.resource = some e := by
  cases found : claimOn s e.resource with
  | none => simpa using List.find?_eq_none.mp found e mem
  | some q =>
    have same : q.resource = e.resource := by simpa using List.find?_some found
    rw [List.inj_on_of_nodup_map sound.2.1 (List.mem_of_find?_eq_some found) mem same]

theorem claimOf_of_mem (sound : claimsSound s) {e : ClaimEntry} (mem : e ∈ s.claims.entries) :
    claimOf s e.handle = some e := by
  cases found : claimOf s e.handle with
  | none => simpa using List.find?_eq_none.mp found e mem
  | some q =>
    have same : q.handle = e.handle := by simpa using List.find?_some found
    rw [List.inj_on_of_nodup_map sound.2.2.1 (List.mem_of_find?_eq_some found) mem same]

theorem cutHeld_iff (sound : lookupsSound s) : cutHeld id s ↔
    (∃ r, findSlab s id = some r ∧ r.state = .cutting) ∧ ∃ e, claimOn s id = some e ∧ e.stage = .held := by
  obtain ⟨-, distinct, claims⟩ := sound
  constructor
  · rintro ⟨⟨r, mem, rfl, cutting⟩, e, inTable, mine, held⟩
    refine ⟨⟨r, findSlab_of_mem distinct mem, cutting⟩, e, ?_, held⟩
    rw [← mine]
    exact claimOn_of_mem claims inTable
  · rintro ⟨⟨r, found, cutting⟩, e, claim, held⟩
    obtain ⟨mem, mine⟩ := mem_of_findSlab found
    exact ⟨⟨r, mem, mine, cutting⟩, e, List.mem_of_find?_eq_some claim, by simpa using List.find?_some claim, held⟩

theorem cutHeld_congr (places : t.register.places = s.register.places) (entries : t.claims.entries = s.claims.entries)
    (h : cutHeld id s) : cutHeld id t := by
  rw [cutHeld, slabRecords_congr places, entries]
  exact h

/-- R9: an eviction leaves a CUTTING record. -/
theorem cutHeld_removeSlab {r : SlabRecord} (distinct : slabsDistinct s) (candidate : r ∈ evictionCandidates s)
    (h : cutHeld id s) : cutHeld id (removeSlab r.id s) := by
  obtain ⟨⟨q, mem, mine, cutting⟩, claim⟩ := h
  refine ⟨⟨q, ?_, mine, cutting⟩, by simpa [removeSlab] using claim⟩
  obtain ⟨inTable, may⟩ := mem_evictionCandidates.mp candidate
  rw [slabRecords_removeSlab]
  refine List.mem_filter.mpr ⟨mem, ?_⟩
  simp only [bne_iff_ne, ne_eq]
  intro same
  obtain rfl := List.inj_on_of_nodup_map distinct mem inTable same
  obtain gone | ⟨stock, -⟩ := evictable_state may
  · simp [cutting] at gone
  · simp [cutting] at stock

theorem cutHeld_makeRoom (room : makeRoom s = some u) (distinct : slabsDistinct s) (h : cutHeld id s) :
    cutHeld id u := by
  obtain ⟨rfl, -⟩ | ⟨r, -, candidate, rfl⟩ := makeRoom_cases room
  · exact h
  · exact cutHeld_removeSlab distinct candidate h

theorem cutHeld_makeSlab (other : Nat) (c : SlabContents) (h : cutHeld id s) : cutHeld id (makeSlab other c s) := by
  obtain ⟨same, -⟩ | ⟨r, -, -, perm⟩ := makeSlab_records other c s
  · rwa [same]
  · obtain ⟨⟨q, mem, mine, cutting⟩, claim⟩ := h
    exact ⟨⟨q, perm.mem_iff.mpr (List.mem_cons_of_mem _ mem), mine, cutting⟩, by simpa using claim⟩

theorem cutHeld_evictUntil (n fuel : Nat) (distinct : slabsDistinct s) (h : cutHeld id s) :
    cutHeld id (evictUntil n fuel s) := by
  induction fuel generalizing s with
  | zero => exact h
  | succ fuel ih =>
    unfold evictUntil
    split
    · exact h
    · split
      · next r choice =>
        exact ih (slabsDistinct_removeSlab _ distinct) (cutHeld_removeSlab distinct (evictionChoice_mem choice) h)
      · exact h

/-- R6, R81: the slab kept is not let go of. -/
theorem Move.cutHeld (h : Move k s t) (kept : k.kept = some id) (isSlab : isSlabId id = true) (sound : lookupsSound s)
    (holds : cutHeld id s) : cutHeld id t := by
  have ⟨_, distinct, claims⟩ := sound
  have stays {x : Nat} (free : letsGo k s x) : x ≠ id := by
    rintro rfl
    obtain ⟨⟨r, found, cutting⟩, -⟩ := (cutHeld_iff sound).mp holds
    exact free kept isSlab r found cutting
  cases h with
  | slab keeps free =>
    obtain ⟨⟨r, mem, mine, cutting⟩, claim⟩ := holds
    refine ⟨?_, claim⟩
    rw [slabRecords_mapSlab]
    refine ⟨_, List.mem_map.mpr ⟨r, mem, rfl⟩, ?_, ?_⟩
    · split
      · exact (keeps r).trans mine
      · exact mine
    · split
      · next hit =>
        obtain free | still := free
        · exact absurd (hit.symm.trans mine) (stays free)
        · exact still r cutting
      · exact cutting
  | unreserve => exact holds
  | heardSlab c _ room => exact cutHeld_makeSlab _ c (cutHeld_makeRoom room distinct holds)
  | enteredSlab c room =>
    exact cutHeld_makeSlab _ c (cutHeld_congr (by simp [advanceSerial]) (by simp) (cutHeld_makeRoom room distinct holds))
  | remnant parent c r =>
    exact cutHeld_makeSlab (s := dropReservations 1 (advanceSerial s)) _ _
      (cutHeld_congr (by simp [advanceSerial, dropReservations]) (by simp) holds)
  | reserve room =>
    obtain ⟨-, rfl⟩ := reserve_cases room
    exact cutHeld_congr rfl rfl (cutHeld_evictUntil _ _ distinct holds)
  | claim _ keeps held =>
    obtain ⟨record, e, mem, mine, isHeld⟩ := holds
    refine ⟨record, _, List.mem_map.mpr ⟨e, mem, rfl⟩, ?_, ?_⟩
    · split
      · exact (keeps e).2.trans mine
      · exact mine
    · split
      · next hit => exact held claims e (by rw [← hit]; exact claimOf_of_mem claims mem) isHeld
      · exact isHeld
  | unclaim _ free =>
    obtain ⟨record, e, mem, mine, isHeld⟩ := holds
    refine ⟨record, e, List.mem_filter.mpr ⟨mem, ?_⟩, mine, isHeld⟩
    simp only [bne_iff_ne, ne_eq]
    intro hit
    exact stays (free claims e (by rw [← hit]; exact claimOf_of_mem claims mem) isHeld) mine
  | newClaim =>
    obtain ⟨record, e, mem, rest⟩ := holds
    exact ⟨record, e, by simp [mem], rest⟩
  | _ => exact cutHeld_congr (by simp) (by simp) holds

theorem Run.lookupsSound (h : Run k moved s t) (sound : lookupsSound s) : lookupsSound t :=
  ⟨h.tablesSized sound.1, h.slabsDistinct sound.1 sound.2.1, h.claimsSound sound.2.2⟩

theorem Run.cutHeld (h : Run k moved s t) (kept : k.kept = some id) (isSlab : isSlabId id = true)
    (sound : Machine.lookupsSound s) (holds : Machine.cutHeld id s) : Machine.cutHeld id t := by
  induction h with
  | refl => exact holds
  | tail before change ih =>
    have soundThen := Run.lookupsSound before sound
    cases change with
    | move m => exact m.cutHeld kept isSlab soundThen ih
    | settles keeps =>
      obtain ⟨record, e, mem, mine, isHeld⟩ := ih
      exact ⟨record, _, List.mem_map.mpr ⟨e, mem, rfl⟩, (keeps e).2.1.trans mine, (keeps e).2.2.trans isHeld⟩
    | erased _ none => rw [none] at kept; cases kept
    | started _ _ _ _ none => rw [none] at kept; cases kept
    | _ => exact ih

/-! ### The staged plan names a slab -/

/-- R45: a staged plan names a slab id. -/
def stagedNames (s : State) : Prop := ∀ p, s.staged.plan? = some p → isSlabId p.slab = true

theorem startUp_staged (x : Station) (s : State) : (startUp x s).staged = .empty := by simp [startUp]

theorem Run.stagedNames (h : Run k moved s t) (names : stagedNames s) : stagedNames t := by
  induction h with
  | refl => exact names
  | tail _ change ih =>
    cases change with
    | move m =>
      cases m with
      | staged from_ =>
        intro p hp
        obtain isSlab | ⟨q, hq, same⟩ := from_ p hp
        · exact isSlab
        · exact same ▸ ih q hq
      | heardSlab c _ room =>
        rw [makeRoom_frame room]
        simpa [Machine.stagedNames] using ih
      | enteredSlab c room =>
        rw [makeRoom_frame room]
        simpa [Machine.stagedNames] using ih
      | reserve room =>
        rw [reserve_frame room]
        exact ih
      | _ => simpa [makeRemnant, Machine.stagedNames] using ih
    | started x =>
      intro p hp
      rw [startUp_staged] at hp
      cases hp
    | _ => exact ih

end Kept

end Sys2Proof.Machine

namespace Sys2Proof.Machine

open Sys2Proof Sys2Proof.Safety Relation

/-- R65, R67: a plan in work on an ACTIVE line, its slab CUTTING and its claim HELD. -/
def planKept (s : State) : Prop :=
  planLive s → s.floor.attach = .active ∧ isSlabId s.active.plan.slab = true ∧ cutHeld s.active.plan.slab s

section Plan
variable {s t : State}

theorem planHolds_iff (sound : lookupsSound s) : planHolds s ↔ stagedNames s ∧ planKept s ∧ pausedWaits s := by
  rw [planHolds, planKept, cutHeld_iff sound]
  rfl

/-! ### A plan started -/

theorem runStartPlan_cases (s : State) :
    (∃ why, runStartPlan s = refuse 0x0C why s) ∨
    ∃ p, s.floor.attach = .active ∧ s.staged = .valid p ∧ (findSlab s p.slab).map (·.state) = some .stock ∧
      isHeld s p.slab = true ∧ runStartPlan s = startPlan p (accept 0x0C s) := by
  unfold runStartPlan
  split
  · exact .inl ⟨_, rfl⟩
  · split
    · exact .inl ⟨_, rfl⟩
    · next active =>
      split
      · exact .inl ⟨_, rfl⟩
      · split
        · next p staged =>
          split
          · exact .inl ⟨_, rfl⟩
          · next stock =>
            split
            · exact .inl ⟨_, rfl⟩
            · next held => exact .inr ⟨p, not_not.mp active, staged, not_not.mp stock, by simpa using held, rfl⟩
        · exact .inl ⟨_, rfl⟩
        · exact .inl ⟨_, rfl⟩
        · exact .inl ⟨_, rfl⟩
        · exact .inl ⟨_, rfl⟩

/-- R65: the plan started is the one staged, whatever the issue makes of it. -/
theorem startPlan_plan (p : Plan) (s : State) : (startPlan p s).active.plan = p := by
  have told : (tellWater (setSlabState p.slab .cutting (loadActive p s))).active.plan = p :=
    (tellWater_answers _).plan.trans (by rw [setSlabState_active]; rfl)
  rw [startPlan]
  obtain ⟨cause, f, -, same⟩ | issued := issuePlan_cases (tellWater (setSlabState p.slab .cutting (loadActive p s)))
  · rw [same.1]
    exact told
  · rw [issued]
    simpa [issueOrder] using told

theorem startPlan_cutHeld {p : Plan} {r : SlabRecord} (sound : lookupsSound s) (isSlab : isSlabId p.slab = true)
    (found : findSlab s p.slab = some r) (held : isHeld s p.slab = true) : cutHeld p.slab (startPlan p s) := by
  obtain ⟨mem, mine⟩ := mem_of_findSlab found
  have cut : cutHeld p.slab (mapSlab p.slab (fun r => { r with state := .cutting }) s) := by
    refine ⟨⟨{ r with state := .cutting }, ?_, mine, rfl⟩, ?_⟩
    · rw [slabRecords_mapSlab]
      exact List.mem_map.mpr ⟨r, mem, by rw [if_pos mine]⟩
    · obtain ⟨e, claim, isHeld⟩ := (Option.any_eq_true ..).mp held
      exact ⟨e, List.mem_of_find?_eq_some claim, by simpa using List.find?_some claim, by simpa using isHeld⟩
  have cutting : Moves Scope.all s (setSlabState p.slab .cutting (loadActive p s)) := by
    have loaded : Moves Scope.all s (loadActive p s) :=
      (stagedEmpty_moves s).trans (active_moves _ _ trivial)
    exact loaded.trans (setSlabState_moves (.inr rfl))
  have issued : Moves ⟨True, True, some p.slab⟩ (setSlabState p.slab .cutting (loadActive p s)) (startPlan p s) :=
    (tellWater_moves (.inl trivial) (.inl trivial)).trans (issuePlan_moves (.inl trivial) trivial)
  exact (issued.run (moved := True)).cutHeld rfl isSlab ((cutting.run (moved := True)).lookupsSound sound)
    (cutHeld_congr (by simp [setSlabState, loadActive, mapSlab]) (by simp [loadActive]) cut)

theorem planKept_startPlan (h : exec .startPlan s = .next t) (sound : lookupsSound s) (names : stagedNames s) (kept : planKept s) :
    planKept t := by
  obtain rfl | rfl := takeCommand_cases h
  · exact kept
  · obtain ⟨why, refused⟩ | ⟨p, active, staged, stock, held, started⟩ := runStartPlan_cases (popInbound s)
    · rw [refused]
      intro live
      obtain ⟨attach, isSlab, holds⟩ := kept (by simpa [planLive] using live)
      refine ⟨by simpa using attach, by simpa using isSlab, ?_⟩
      have same : (launchWrite (refuse 0x0C why (popInbound s))).active.plan.slab = s.active.plan.slab := by simp
      rw [same]
      exact cutHeld_congr (by simp) (by simp) holds
    · rw [started]
      obtain ⟨r, found, -⟩ := Option.map_eq_some_iff.mp stock
      have isSlab : isSlabId p.slab = true := names p (by rw [show s.staged = .valid p from staged]; rfl)
      have holds : cutHeld p.slab (startPlan p (accept 0x0C (popInbound s))) :=
        startPlan_cutHeld (r := r) (((accept_moves (k := Scope.all) 0x0C _).run (moved := True)).lookupsSound sound)
          isSlab (by simpa [findSlab] using found) (by simpa [isHeld, claimOn] using held)
      have plan : (launchWrite (startPlan p (accept 0x0C (popInbound s)))).active.plan = p := by
        rw [launchWrite_active, startPlan_plan]
      intro _
      rw [plan]
      refine ⟨?_, isSlab, cutHeld_congr (by simp) (by simp) holds⟩
      have moves : Moves Scope.all (popInbound s) (launchWrite (startPlan p (accept 0x0C (popInbound s)))) :=
        (accept_moves ..).trans ((startPlan_moves _ (.inl trivial) trivial).trans (launchWrite_moves _))
      exact moves.attach.trans active

/-! ### Every step -/

/-- R90, R166: a notice that mutes the station leaves no plan in work. -/
theorem muted_not_live {c : Instr} {station : Nat} (bears : sender c = some station)
    (own : s.station.number = some station) (armed : detectorArmed s = true) (h : exec c s = .next t)
    (moved : t.floor.attach ≠ s.floor.attach) : ¬ planLive t := by
  obtain ⟨kind, demand, owner, hears⟩ := exec_of_sender bears
  rw [hears] at h
  obtain rfl := Host.Outcome.next.inj h
  unfold hearNotice at moved ⊢
  rw [if_pos own] at moved ⊢
  split
  · next deaf => exact absurd (by rw [if_pos deaf]) moved
  · rw [planLive_launchWrite, planLive, muteStation_active]
    exact mutePlan_not_live _

theorem activeOn_of_live (live : planLive s) : activeOn s s.active.plan.slab = true := by
  obtain h | h | h := live
  · simp [activeOn, h, ActiveState.refersToSlab]
  · simp [activeOn, h, ActiveState.refersToSlab]
  · simp [activeOn, h, ActiveState.refersToSlab]

/-- R65, R81: a plan that stays in work keeps its slab and its claim. -/
theorem exec_keeps_planKept {c : Instr} (h : exec c s = .next t) (sound : lookupsSound s) (names : stagedNames s)
    (kept : planKept s) : planKept t := by
  by_cases reset : isReset c = true
  · obtain rfl | ⟨x, rfl⟩ := reset_cases h reset
    · exact kept
    · intro live
      rw [planLive, startUp_active] at live
      simp [Active.reset] at live
  · by_cases starts : c = .startPlan
    · subst starts
      exact planKept_startPlan h sound names kept
    · intro live
      have goes := exec_goes h (by simpa using reset)
      obtain ⟨liveThen, slab⟩ | ⟨starting, -⟩ | ⟨-, dead⟩ := goes.live live
      · obtain ⟨attach, isSlab, holds⟩ := kept liveThen
        have run : Run ⟨True, True, some s.active.plan.slab⟩ True s t := by
          refine exec_run h ⟨.inl trivial, trivial, .inr ⟨live, attach, fun id mine => ?_⟩⟩
            (fun isReset => absurd isReset reset) fun _ => trivial
          obtain rfl := Option.some.inj mine
          exact activeOn_of_live liveThen
        rw [slab]
        refine ⟨?_, isSlab, run.cutHeld rfl isSlab sound holds⟩
        obtain same | ⟨isReset, -⟩ | ⟨-, inert, -⟩ | ⟨-, listening, -⟩ | ⟨own, numbered, armed, muted⟩ :=
          Proofs.attachStateMovesOnlySo c s t h
        · exact same.trans attach
        · exact absurd isReset reset
        · rw [attach] at inert
          cases inert
        · rw [attach] at listening
          cases listening
        · obtain ⟨station, number⟩ := Option.isSome_iff_exists.mp numbered
          exact absurd live (muted_not_live (own.trans number) number (by simp [detectorArmed, attach]) h
            (by rw [muted, attach]; simp))
      · exact absurd starting starts
      · exact absurd live dead

theorem exec_keeps_pausedWaits {c : Instr} (h : exec c s = .next t) (waits : pausedWaits s) : pausedWaits t := by
  by_cases reset : isReset c = true
  · obtain rfl | ⟨x, rfl⟩ := reset_cases h reset
    · exact waits
    · intro paused
      rw [startUp_active] at paused
      cases paused
  · exact (exec_goes h (by simpa using reset)).paused waits

theorem exec_keeps_planHolds {c : Instr} (h : exec c s = .next t) (sound : lookupsSound s) (holds : planHolds s) :
    planHolds t := by
  obtain ⟨names, kept, waits⟩ := (planHolds_iff sound).mp holds
  have run := exec_run_all h
  exact (planHolds_iff (run.lookupsSound sound)).mpr
    ⟨run.stagedNames names, exec_keeps_planKept h sound names kept, exec_keeps_pausedWaits h waits⟩

theorem tick_keeps_planHolds (sound : lookupsSound s) (holds : planHolds s) : planHolds (tick s) := by
  obtain ⟨names, kept, waits⟩ := (planHolds_iff sound).mp holds
  have goes : slotGoes False s (tick s) := tick_goes s
  have run : Run Scope.all True s (tick s) := tick_run trivial
  refine (planHolds_iff (run.lookupsSound sound)).mpr ⟨run.stagedNames names, fun live => ?_, goes.paused waits⟩
  obtain ⟨attach, isSlab, held⟩ := kept ((goes.live live).resolve_right id).1
  have ticks : Run ⟨True, True, some s.active.plan.slab⟩ True s (tick s) := tick_run trivial
  exact ⟨attach, isSlab, ticks.cutHeld rfl isSlab sound held⟩

theorem step_keeps_planHolds (sized : tablesSized s) (distinct : slabsDistinct s) (claims : claimsSound s)
    (holds : planHolds s) (h : step s = .next t) : planHolds t := by
  have sound : lookupsSound s := ⟨sized, distinct, claims⟩
  obtain ⟨c, rest, -, ran⟩ | ⟨c, ran, -⟩ | rfl := step_cases h
  · exact exec_keeps_planHolds ran sound holds
  · exact exec_keeps_planHolds ran sound holds
  · exact tick_keeps_planHolds sound holds

end Plan

end Sys2Proof.Machine

namespace Sys2Proof.Proofs

open Sys2Proof Sys2Proof.Machine Sys2Proof.Safety

/-- Settles O11: a command that leaves the plan in work lets go of neither its slab nor its claim. -/
theorem stepKeepsOrderWithItsPlan : Obligations.StepKeepsOrderWithItsPlan :=
  ⟨fun _ _ => step_keeps_orderFits, fun _ _ => step_keeps_planHolds⟩

end Sys2Proof.Proofs

/-! PROOF. Resets: the reset state (O12), the values of every block (O22), the store recovered (O23). -/

namespace Sys2Proof.Machine

open Sys2Proof Sys2Proof.Safety

section Reset
variable {s : State}

/-! ### The reset state -/

theorem reset_copies_hold : copiesHold State.reset.store := by
  refine ⟨fun bytes mem => ?_, fun _ _ none => nomatch none⟩
  obtain rfl := List.eq_of_mem_replicate mem
  intro _ j found
  exact nomatch (show (none : Option JobRecord) = some j from found)

theorem reset_records : slabRecords State.reset = [] := rfl

theorem reset_jobs : (State.reset.jobs.filterMap fun o => o) = [] := rfl

theorem reset_jobsSound : jobsSound State.reset := by
  refine (jobsSound_iff _).mpr ⟨⟨?_, fun j mem => ?_⟩, reset_copies_hold⟩
  · rw [reset_jobs]
    exact List.nodup_nil
  · exact nomatch List.eq_of_mem_replicate (show some j ∈ List.replicate 24 none from mem)

/-- R179: either reset, as it is taken, is start-up. -/
theorem exec_reset {c : Instr} {straps : Nat}
    (h : c = .pinReset straps ∨ (c = .restart straps ∧ atHead straps (.restart straps) s ∧ roomToAnswer s)) :
    exec c s = .next (startUp ⟨straps, if c = .pinReset straps then none else s.station.setNumber⟩ s) := by
  obtain rfl | ⟨rfl, head, room⟩ := h
  · rw [if_pos rfl]
    rfl
  · have taken : canTake straps (.restart straps) s = true := by
      rw [canTake, (commandRoom_iff s).mpr room, head]
      simp
    rw [if_neg (by simp)]
    change Host.Outcome.next (if canTake straps (.restart straps) s then startUp ⟨straps, s.station.setNumber⟩ s else s) = _
    rw [if_pos taken]

theorem placeBytes_launchWrite (p : StorePlace) (s : State) : placeBytes (launchWrite s) p = placeBytes s p := by
  obtain ⟨same, -⟩ | ⟨q, rest, -, -, launched⟩ := launchWrite_cases s
  · rw [same]
  · rw [launched]
    cases p <;> rfl

/-- R183: what a launch leaves of the store. -/
theorem launchWrite_store (s : State) : (launchWrite s).store =
    { s.store with queue := (launchWrite s).store.queue, inFlight := (launchWrite s).store.inFlight } := by
  obtain ⟨same, -⟩ | ⟨q, rest, -, -, launched⟩ := launchWrite_cases s
  · rw [same]
  · rw [launched]

/-- R183: with none going out, the first to be written goes out. -/
theorem launchWrite_idle (idle : s.store.inFlight = none) : toWrite (launchWrite s) = s.store.queue ∧
    ((launchWrite s).store.inFlight = none ↔ s.store.queue = []) ∧
    ∀ w, (launchWrite s).store.inFlight = some w →
      w.place ∈ s.store.queue ∧ w.bytes = placeBytes s w.place ∧ w.timer = writeTime w.place := by
  obtain ⟨same, stays⟩ | ⟨p, rest, -, queue, launched⟩ := launchWrite_cases s
  · have empty : s.store.queue = [] := stays.resolve_left (by simp [idle])
    rw [same, toWrite]
    simp [idle, empty]
  · rw [launched, toWrite]
    refine ⟨by simp [queue], by simp [queue], fun w out => ?_⟩
    obtain rfl := Option.some.inj out
    exact ⟨by simp [queue], rfl, rfl⟩

end Reset

end Sys2Proof.Machine

namespace Sys2Proof.Proofs

open Sys2Proof Sys2Proof.Machine Sys2Proof.Safety

/-- Settles O12: every table and queue of the reset state is empty, and every slot at rest. -/
theorem resetMeetsWhatEveryStepKeeps : Obligations.ResetMeetsWhatEveryStepKeeps := by
  refine ⟨⟨by decide, by decide, by decide⟩, ?_, ?_, ⟨rfl, rfl, rfl, rfl, rfl⟩, ?_, ?_, reset_jobsSound, ?_, List.nodup_nil,
    ⟨rfl, rfl, rfl⟩, ⟨fun p none => (nomatch none), fun live => ?_, fun paused => (nomatch paused)⟩, fun drives => absurd rfl drives⟩
  · exact ⟨fun aborted => (nomatch aborted), by decide⟩
  · simp [transmitOrdered, State.reset, Floor.reset]
  · rw [slabsDistinct, reset_records]
    exact List.nodup_nil
  · rw [placesWithin, reset_records]
    decide
  · simp [claimsSound, State.reset, ClaimTable.reset]
  · obtain h | h | h := live
    · exact nomatch h
    · exact nomatch h
    · exact nomatch h

end Sys2Proof.Proofs

namespace Sys2Proof.Machine

open Sys2Proof Sys2Proof.Safety

section Started
variable {s : State}

/-- R179: what either reset leaves, but for the write launched. -/
theorem recovered_idle (x : Station) (s : State) : (recovered x s).store.inFlight = none := rfl

theorem startUp_toWrite (x : Station) (s : State) : toWrite (startUp x s) = (recovered x s).store.queue := by
  rw [startUp_eq]
  exact (launchWrite_idle (recovered_idle x s)).1

theorem recovered_queue (x : Station) (s : State) : (recovered x s).store.queue =
    (recoverSlabs (abandonWrite s).slabs).writes ++ (recoverJobs (abandonWrite s).jobs).writes ++
      (if goodCheck (abandonWrite s).sump then [] else [.sump]) ++
      (if goodCheck (abandonWrite s).serial then [] else [.serial]) := by
  rw [recoverJobs_eq, (recoverSlabs_eq _).1]
  simp only [recovered]
  cases goodCheck (abandonWrite s).sump <;> cases goodCheck (abandonWrite s).serial <;> rfl

theorem recovered_queue_plain (x : Station) (s : State) : StorePlace.erase ∉ (recovered x s).store.queue := by
  simp only [recovered, List.mem_append, not_or]
  refine ⟨⟨⟨by simp, by simp [jobsUpTo]⟩, ?_⟩, ?_⟩
  · split <;> simp
  · split <;> simp

theorem abandonWrite_cases (s : State) : (s.store.inFlight = none → abandonWrite s = s.store) ∧
    ∀ w, s.store.inFlight = some w →
      (w.place = .config ∨ w.place = .calibration → abandonWrite s = s.store) ∧
      (w.place ≠ .config → w.place ≠ .calibration → abandonWrite s = s.store.leave s.freeUses w) := by
  unfold abandonWrite
  refine ⟨fun none => by rw [none], fun w inFlight => ?_⟩
  rw [inFlight]
  cases place : w.place <;> simp [place, StorePlace.keepsOld]

end Started

end Sys2Proof.Machine

namespace Sys2Proof.Proofs

open Sys2Proof Sys2Proof.Machine Sys2Proof.Safety

/-- Settles O22: a reset is start-up, which leaves the blocks of `recovered` and launches the first write. -/
theorem resetsLeaveEveryBlockAtItsValues : Obligations.ResetsLeaveEveryBlockAtItsValues := by
  intro c straps s taken
  obtain ⟨none, writing⟩ := abandonWrite_cases s
  refine ⟨none, writing, _, exec_reset taken, ?_⟩
  generalize (⟨straps, if c = .pinReset straps then Option.none else s.station.setNumber⟩ : Station) = x
  obtain ⟨-, drained, launched⟩ := launchWrite_idle (recovered_idle x s)
  have wrote := startUp_toWrite x s
  have store := launchWrite_store (recovered x s)
  have bytes (w : StoreWrite) (h : (launchWrite (recovered x s)).store.inFlight = some w) :
      w.bytes = placeBytes (launchWrite (recovered x s)) w.place ∧ w.timer = 5 := by
    obtain ⟨queued, copy, time⟩ := launched w h
    refine ⟨copy.trans (placeBytes_launchWrite _ _).symm, time.trans ?_⟩
    cases place : w.place with
    | erase => exact absurd (place ▸ queued) (recovered_queue_plain x s)
    | _ => rfl
  rw [startUp_eq] at wrote ⊢
  refine ⟨?_, ?_, ?_, ?_, ?_, ?_, ?_, ?_, ?_, ?_, ?_, ?_, ?_, ?_, ?_, ?_, ?_, ?_, ?_, ?_,
    wrote.trans (recovered_queue x s), drained.trans (by rw [wrote]), bytes, ?_⟩
  · exact launchWrite_pending _
  · exact launchWrite_station _
  · exact launchWrite_settings _
  · exact launchWrite_host _
  · rw [State.attentionLow, launchWrite_host]
    rfl
  · exact launchWrite_floor _
  · exact launchWrite_peers _
  · rw [launchWrite_register, (recoverSlabs_eq _).1]
    rfl
  · rw [launchWrite_claims]
    rfl
  · rw [launchWrite_claims]
    rfl
  · exact launchWrite_staged _
  · exact launchWrite_active _
  · exact launchWrite_charge _
  · exact launchWrite_water _
  · rw [State.recycledValve, State.cutting, launchWrite_active]
    rfl
  · rw [State.freshValve, State.cutting, launchWrite_active]
    rfl
  · rw [State.purgeValve, launchWrite_sump]
    rfl
  · exact launchWrite_sump _
  · rw [launchWrite_jobs, recoverJobs_eq]
    rfl
  · rw [store, recoverJobs_eq, (recoverSlabs_eq _).1]
    rfl
  · exact launchWrite_freeUses _

end Sys2Proof.Proofs

namespace Sys2Proof.Machine

open Sys2Proof Sys2Proof.Safety

section Stored
variable {stored : List (List Byte)} {i : Nat} {bs : List Byte}

/-! ### The register recovered -/

theorem getD_of_getElem? {α : Type} {l : List α} {d a : α} (h : l[i]? = some a) : l.getD i d = a := by
  rw [List.getD_eq_getElem?_getD, h]
  rfl

theorem mapIdx_getElem? {α β : Type} {l : List α} {f : Nat → α → β} {a : α} (h : l[i]? = some a) :
    (l.mapIdx f)[i]? = some (f i a) := by
  rw [List.getElem?_mapIdx, h]
  rfl

theorem slabAt_state {r : SlabRecord} (h : slabAt stored i bs = some r) :
    r.state ≠ .cutting ∧ r.holder = none ∧ r.heard = 0 := by
  unfold slabAt at h
  split at h
  · obtain ⟨q, found, rfl⟩ := Option.map_eq_some_iff.mp h
    have read := (Option.filter_eq_some_iff.mp found).1
    unfold slabOfBytes at read
    simp only at read
    split at read
    · cases read
    · obtain rfl := Option.some.inj read
      refine ⟨?_, rfl, rfl⟩
      unfold slabBack
      simp only
      split
      · simp
      · next other => exact other
  · cases h

theorem slabAt_good {r : SlabRecord} (good : goodCheck bs = true) (read : slabOfBytes bs = some r)
    (first : slabBefore stored i r.id = false) : slabAt stored i bs = some (slabBack r) := by
  simp [slabAt, good, read, Option.filter_some, first]

theorem slabAt_leftOut (here : stored[i]? = some bs) (h : slabLeftOut stored i = true ∨ slabOfBytes bs = none) :
    slabAt stored i bs = none := by
  unfold slabAt
  split
  · next good =>
    rw [Option.map_eq_none_iff]
    cases read : slabOfBytes bs with
    | none => rfl
    | some r =>
      have second := h.resolve_right (by simp [read])
      simp only [slabLeftOut, getD_of_getElem? here, good, read, Bool.not_true, Bool.false_or, Option.any_some] at second
      simp [Option.filter_some, second]
  · rfl

theorem slabRewritten_iff : slabRewritten stored i = true ∧ i < stored.length ↔
    ∃ bs r, stored[i]? = some bs ∧ goodCheck bs = true ∧ slabOfBytes bs = some r ∧
      (slabBefore stored i r.id = true ∨ r.state = .cutting) := by
  simp only [slabRewritten, Bool.and_eq_true, Option.any_eq_true, Bool.or_eq_true, beq_iff_eq]
  constructor
  · rintro ⟨⟨good, r, read, h⟩, lt⟩
    rw [getD_of_lt lt] at good read
    exact ⟨stored[i], r, List.getElem?_eq_getElem lt, good, read, h⟩
  · rintro ⟨bs, r, here, good, read, h⟩
    rw [getD_of_getElem? here]
    exact ⟨⟨good, r, read, h⟩, (List.getElem?_eq_some_iff.mp here).1⟩

/-! ### The cost table recovered -/

theorem jobAt_of_good {n : Nat} (here : stored[i]? = some bs) (good : goodCheck bs = true) :
    jobAt stored n i bs = goodJobAt stored i bs := by
  refine if_neg fun damaged => ?_
  have bad := (jobDamaged_bad damaged.2).1
  rw [getD_of_getElem? here, good] at bad
  cases bad

/-- R151: a damaged copy comes back as the first of its number, where no good copy is of that number. -/
theorem jobDamaged_iff (here : stored[i]? = some bs) (bad : goodCheck bs = false) : jobDamaged stored i = true ↔
    u16At bs 0 ≠ 0 ∧ jobBefore stored stored.length (u16At bs 0) = false ∧
      ∀ k < i, ∀ cs, stored[k]? = some cs → goodCheck cs = false → u16At cs 0 ≠ u16At bs 0 := by
  have lt := (List.getElem?_eq_some_iff.mp here).1
  simp only [jobDamaged, getD_of_getElem? here, bad, Bool.not_false, Bool.true_and, Bool.and_eq_true, bne_iff_ne, ne_eq,
    Bool.not_eq_true', List.all_eq_true, List.mem_range, Bool.or_eq_true, jobBefore_length, and_assoc]
  refine and_congr_right fun _ => and_congr_right fun _ => forall_congr' fun k => imp_congr_right fun before => ?_
  rw [List.getElem?_eq_getElem (before.trans lt), getD_of_lt (before.trans lt)]
  constructor
  · rintro h cs rfl' damaged
    obtain rfl := Option.some.inj rfl'
    exact h.resolve_left (by simp [damaged])
  · intro h
    cases good : goodCheck stored[k] with
    | true => exact .inl rfl
    | false => exact .inr (h _ rfl good)

theorem jobAt_of_bad (here : stored[i]? = some bs) (bad : goodCheck bs = false) :
    jobAt stored stored.length i bs = if jobDamaged stored i then some (damagedJob (u16At bs 0)) else none := by
  have lt := (List.getElem?_eq_some_iff.mp here).1
  rw [jobAt, goodJobAt_of_bad bad]
  simp [lt]

theorem jobRewritten_iff : jobRewritten stored i = true ∧ i < stored.length ↔
    ∃ bs, stored[i]? = some bs ∧ goodCheck bs = true ∧ ∃ j, jobOfBytes bs = some j ∧
      jobBefore stored i j.number = true := by
  simp only [jobRewritten, Bool.and_eq_true, Option.any_eq_true]
  constructor
  · rintro ⟨⟨good, j, read, h⟩, lt⟩
    rw [getD_of_lt lt] at good read
    exact ⟨stored[i], List.getElem?_eq_getElem lt, good, j, read, h⟩
  · rintro ⟨bs, here, good, j, read, h⟩
    rw [getD_of_getElem? here]
    exact ⟨⟨good, j, read, h⟩, (List.getElem?_eq_some_iff.mp here).1⟩

/-- R151: a job place whose copy is damaged holds a record where that copy brings it back. -/
theorem jobDamaged_isSome (lt : i < stored.length) : jobDamaged stored i =
    (!goodCheck (stored.getD i []) && ((stored.mapIdx (jobAt stored stored.length)).getD i none).isSome) := by
  have here := List.getElem?_eq_getElem lt
  rw [getD_of_getElem? (mapIdx_getElem? here), getD_of_lt lt]
  cases good : goodCheck stored[i] with
  | true =>
    rw [Bool.not_true, Bool.false_and]
    by_contra damaged
    have bad := (jobDamaged_bad (by simpa using damaged)).1
    rw [getD_of_lt lt, good] at bad
    cases bad
  | false =>
    rw [jobAt_of_bad here good, Bool.not_false, Bool.true_and]
    cases jobDamaged stored i <;> rfl

end Stored

/-! ### The writes queued -/

section Queue
variable (x : Station) (s : State)

theorem recovered_slab_mem (i : Nat) : .slab i ∈ (recovered x s).store.queue ↔
    slabRewritten (abandonWrite s).slabs i = true ∧ i < (abandonWrite s).slabs.length := by
  simp only [recovered, jobsUpTo, List.mem_append, List.mem_map, List.mem_filter, List.mem_range, StorePlace.slab.injEq]
  constructor
  · rintro (((⟨k, ⟨lt, h⟩, rfl⟩ | ⟨k, -, other⟩ | ⟨k, -, other⟩) | h) | h)
    · exact ⟨h, lt⟩
    · cases other
    · cases other
    · split at h <;> simp at h
    · split at h <;> simp at h
  · exact fun ⟨h, lt⟩ => .inl (.inl (.inl ⟨i, ⟨lt, h⟩, rfl⟩))

theorem recovered_job_mem (i : Nat) : .job i ∈ (recovered x s).store.queue ↔
    (jobRewritten (abandonWrite s).jobs i = true ∧ i < (abandonWrite s).jobs.length) ∨
      (jobDamaged (abandonWrite s).jobs i = true ∧ i < (abandonWrite s).jobs.length) := by
  simp only [recovered, jobsUpTo, List.mem_append, List.mem_map, List.mem_filter, List.mem_range, StorePlace.job.injEq]
  constructor
  · rintro (((⟨k, -, other⟩ | ⟨k, ⟨lt, h⟩, rfl⟩ | ⟨k, ⟨lt, h⟩, rfl⟩) | h) | h)
    · cases other
    · exact .inl ⟨h, lt⟩
    · exact .inr ⟨h, lt⟩
    · split at h <;> simp at h
    · split at h <;> simp at h
  · rintro (⟨h, lt⟩ | ⟨h, lt⟩)
    · exact .inl (.inl (.inr (.inl ⟨i, ⟨lt, h⟩, rfl⟩)))
    · exact .inl (.inl (.inr (.inr ⟨i, ⟨lt, h⟩, rfl⟩)))

theorem recovered_defaults_mem : (.sump ∈ (recovered x s).store.queue ↔ goodCheck (abandonWrite s).sump = false) ∧
    (.serial ∈ (recovered x s).store.queue ↔ goodCheck (abandonWrite s).serial = false) := by
  simp only [recovered, jobsUpTo, List.mem_append, List.mem_map]
  cases goodCheck (abandonWrite s).sump <;> cases goodCheck (abandonWrite s).serial <;> simp

end Queue

end Sys2Proof.Machine

namespace Sys2Proof.Proofs

open Sys2Proof Sys2Proof.Machine Sys2Proof.Safety

/-- Settles O23: by what each stored place comes back as. -/
theorem startUpRecoversTheStore : Obligations.StartUpRecoversTheStore := by
  intro c straps s taken
  refine ⟨_, exec_reset taken, ?_⟩
  generalize (⟨straps, if c = .pinReset straps then Option.none else s.station.setNumber⟩ : Station) = x
  obtain ⟨places, -, jobs, -, -, -⟩ := startUp_tables x s
  have register : (startUp x s).register.serial = recoverSerial (abandonWrite s).serial := by simp [startUp]
  have volume : (startUp x s).sump.volume = recoverVolume (abandonWrite s).sump := by simp [startUp]
  have store := launchWrite_store (recovered x s)
  rw [← startUp_eq] at store
  have leftOut : (startUp x s).store.leftOut = (recovered x s).store.leftOut := by rw [store]
  have damaged : (startUp x s).store.damaged = (recovered x s).store.damaged := by rw [store]
  have slabMem := recovered_slab_mem x s
  have jobMem := recovered_job_mem x s
  obtain ⟨sumpMem, serialMem⟩ := recovered_defaults_mem x s
  rw [startUp_toWrite, places, jobs, leftOut, damaged, register, volume]
  simp only [slabMem, jobMem, sumpMem, serialMem]
  simp only [jobsUpTo, recovered]
  generalize abandonWrite s = st
  refine ⟨fun r mem => ?_, fun j mem => ?_, List.length_mapIdx, List.length_mapIdx, fun i bs r here good read first => ?_,
    fun i bs here h => ?_, fun i bs j here good read => ?_, fun i bs here bad => ⟨fun some alone first => ?_, fun h => ?_⟩,
    trivial, ?_, fun i => slabRewritten_iff, fun i => ?_, trivial, trivial, fun bad => ?_, fun bad => ?_, fun good => ?_, fun good => ?_⟩
  · obtain ⟨i, hi, found⟩ := List.mem_mapIdx.mp mem
    exact slabAt_state found
  · obtain ⟨i, hi, found⟩ := List.mem_mapIdx.mp mem
    obtain ⟨good, read, -⟩ | ⟨rfl, -⟩ := jobAt_cases hi found
    · exact ⟨(jobOfBytes_counts read).1, fun _ => .inr ⟨_, List.getElem_mem hi, good, read⟩⟩
    · exact ⟨rfl, fun _ => .inl rfl⟩
  · rw [mapIdx_getElem? here, slabAt_good good read first]
    rfl
  · rw [mapIdx_getElem? here, slabAt_leftOut here h]
  · rw [mapIdx_getElem? here, jobAt_of_good here good, goodJobAt, if_pos good, read, Option.filter_some]
    cases jobBefore st.jobs i j.number <;> rfl
  · rw [mapIdx_getElem? here, jobAt_of_bad here bad, if_pos ((jobDamaged_iff here bad).mpr ⟨some, alone, first⟩)]
  · rw [mapIdx_getElem? here, jobAt_of_bad here bad, if_neg]
    intro damaged
    obtain ⟨some, alone, first⟩ := (jobDamaged_iff here bad).mp damaged
    obtain none | before | ⟨k, lt, cs, there, badThere, same⟩ := h
    · exact some none
    · simp [alone] at before
    · exact first k lt cs there badThere same
  · exact congrArg List.length (List.filter_congr fun i mem => jobDamaged_isSome (List.mem_range.mp mem))
  · rw [jobRewritten_iff]
    constructor
    · rintro (⟨bs, here, good, j, read, h⟩ | ⟨damaged, lt⟩)
      · exact ⟨bs, here, .inl ⟨good, j, read, h⟩⟩
      · have both := damaged
        rw [jobDamaged_isSome lt, Bool.and_eq_true, getD_of_lt lt, Bool.not_eq_true'] at both
        exact ⟨st.jobs[i], List.getElem?_eq_getElem lt, .inr both⟩
    · rintro ⟨bs, here, ⟨good, j, read, h⟩ | ⟨bad, h⟩⟩
      · exact .inl ⟨bs, here, good, j, read, h⟩
      · have lt := (List.getElem?_eq_some_iff.mp here).1
        refine .inr ⟨?_, lt⟩
        rw [jobDamaged_isSome lt, getD_of_getElem? here, bad, h]
        rfl
  · rw [recoverVolume, if_neg (by simp [bad])]
  · rw [recoverSerial, if_neg (by simp [bad])]
  · rw [recoverVolume, if_pos good]
    exact u32At_eq ..
  · rw [recoverSerial, if_pos good]
    rfl

end Sys2Proof.Proofs

/-! PROOF. The feed limit, the issue, and the pending causes (R69, R70, R81 to R85, R99). -/

namespace Sys2Proof.Machine

open Sys2Proof Sys2Proof.Safety

/-! ### The feed limit -/

section Feed
variable {cfg : ConfigFields} {base e : Nat}

/-- R99: from Qnom up the feed is the base feed. -/
theorem feedLimit_of_full (ordered : cfg.qmin ≤ cfg.qnom) (full : cfg.qnom ≤ e) : feedLimit cfg base e = some base := by
  rw [feedLimit, if_neg (by omega), if_pos full]

/-- R99: between Qmin and Qnom the feed is scaled, and raised to Fmin. -/
theorem feedLimit_of_part (least : cfg.qmin ≤ e) (part : e < cfg.qnom) :
    feedLimit cfg base e = some (max cfg.fmin (base * e / cfg.qnom)) := by
  rw [feedLimit, if_neg (by omega), if_neg (by omega)]

/-- R99: below Qmin the answer is HOLD. -/
theorem feedLimit_of_short (short : e < cfg.qmin) : feedLimit cfg base e = none := if_pos short

/-- R99: a part of Qnom scales a feed down. -/
theorem scaledFeed_le (part : e < cfg.qnom) : base * e / cfg.qnom ≤ base :=
  Nat.div_le_of_le_mul ((Nat.mul_le_mul_left base part.le).trans_eq (Nat.mul_comm ..))

/-- R99: there is a feed just where E is at or above Qmin. -/
theorem le_of_feedLimit_eq_some {f : Nat} (h : feedLimit cfg base e = some f) : cfg.qmin ≤ e := by
  by_contra short
  rw [feedLimit_of_short (by omega)] at h
  cases h

end Feed

/-! ### Causes -/

/-- R81: a cause added is the union of the set with it. -/
theorem Pending.add_eq (p : Pending) (cause : Cause) : p.add cause =
    ⟨p.waterShort || cause == .waterShort, p.sumpFull || cause == .sumpFull, p.bladeStall || cause == .bladeStall,
      p.operatorStop || cause == .operatorStop, p.machinePause || cause == .machinePause⟩ := by
  cases cause <;> simp [Pending.add, beq_eq_decide]

/-- R82: the external causes. -/
theorem Cause.origin_eq (cause : Cause) : cause.origin =
    if cause = .waterShort ∨ cause = .sumpFull ∨ cause = .overrun then .external else .machine := by
  cases cause <;> rfl

/-- R81: the empty set. -/
theorem Pending.isEmpty_iff (p : Pending) : p.isEmpty = true ↔ p = ⟨false, false, false, false, false⟩ := by
  obtain ⟨water, sump, stall, stop, pause⟩ := p
  simp [Pending.isEmpty, and_assoc]

/-! ### The issue -/

/-- R69: the issue with water short. -/
theorem issuePlan_of_short {s : State} (short : s.water.effective < s.settings.cfg.qmin) :
    issuePlan s = pauseAtIssue .waterShort s := if_pos short

/-- R69: the issue with the sump full. -/
theorem issuePlan_of_full {s : State} (water : s.settings.cfg.qmin ≤ s.water.effective)
    (full : s.settings.cfg.hardLimit ≤ s.sump.volume) : issuePlan s = pauseAtIssue .sumpFull s := by
  rw [issuePlan, if_neg (by omega), if_pos full]

/-- R69, R70: the issue with neither. -/
theorem issuePlan_of_fit {s : State} (water : s.settings.cfg.qmin ≤ s.water.effective)
    (room : s.sump.volume < s.settings.cfg.hardLimit) : issuePlan s = issueOrder s := by
  rw [issuePlan, if_neg (by omega), if_neg (by omega)]

end Sys2Proof.Machine

namespace Sys2Proof.Proofs

open Sys2Proof Sys2Proof.Machine Sys2Proof.Safety

/-- Settles O17: by the range E lies in. -/
theorem feedFollowsEffectiveWater : Obligations.FeedFollowsEffectiveWater := by
  intro cfg base e ordered low high
  refine ⟨feedLimit_of_full ordered, fun least part => ⟨base * e / cfg.qnom, Nat.div_mul_le_self .., ?_, ?_⟩,
    feedLimit_of_short, fun f h => ?_⟩
  · rw [Nat.mul_comm (_ + 1)]
    exact Nat.lt_mul_div_succ _ (by omega)
  · rw [feedLimit_of_part least part]
    generalize base * e / cfg.qnom = q
    split <;> congr 1 <;> omega
  · have least := le_of_feedLimit_eq_some h
    obtain full | part := le_or_gt cfg.qnom e
    · rw [feedLimit_of_full ordered full] at h
      cases h
      exact ⟨low, high, le_rfl⟩
    · rw [feedLimit_of_part least part] at h
      cases h
      have scaled := scaledFeed_le (base := base) part
      omega

/-- Settles O39: by the two tests of the issue. -/
theorem issuePausesOrOrders : Obligations.IssuePausesOrOrders := by
  intro s g start c cfg depth kind
  refine ⟨issuePlan_of_short, issuePlan_of_full, fun f limit room => ?_, fun f length pos => ?_⟩
  · have feed : nextFeed s = f := congrArg (Option.getD · _) limit
    rw [issuePlan_of_fit (le_of_feedLimit_eq_some limit) room]
    subst feed
    rfl
  · exact ceilDiv_isLeast (length * 600) f pos

/-- Settles O40: by whether the removal leaves a PAUSED plan's set empty, and by the record a cause opens. -/
theorem addedCauseOpensOneRecord : Obligations.AddedCauseOpensOneRecord := by
  refine ⟨fun p s => ⟨fun paused empty => ?_, fun rest => if_neg ?_⟩, fun cause segment kind reached s => ?_⟩
  · exact setPending_of_empty paused ((Pending.isEmpty_iff p).mpr empty)
  · rintro ⟨paused, empty⟩
    exact rest.elim (· paused) (· ((Pending.isEmpty_iff p).mp empty))
  · simp only [addCause, openRecord, Pending.add_eq, Cause.origin_eq]

end Sys2Proof.Proofs

/-! PROOF. START PLAN, ABORT PLAN, the three segment reports, and the slot after each (R64, R65, R74 to R79, R86 to
R90). -/

namespace Sys2Proof.Machine

open Sys2Proof Sys2Proof.Safety

/-! ### START PLAN -/

/-- R64: a slot is free when EMPTY or DONE. -/
theorem ActiveState.isFree_eq_false_iff (a : ActiveState) : a.isFree = false ↔ (a != .empty && a != .done) = true := by
  cases a <;> decide

/-- R64: START PLAN runs the checks of its table, and then takes the staged plan. -/
theorem runStartPlan_eq_checked (s : State) : runStartPlan s = checked 0x0C (startPlanTable s)
    (fun s => startPlan (s.staged.plan?.getD Plan.blank) (accept 0x0C s)) s := by
  simp only [runStartPlan, startPlanTable, checked_cons, checked_nil, ActiveState.isFree_eq_false_iff, beq_iff_eq,
    bne_iff_ne]
  refine if_congr Iff.rfl rfl (if_congr Iff.rfl rfl (if_congr Iff.rfl rfl ?_))
  cases staged : s.staged with
  | valid p =>
    have slab : (findSlab s p.slab).map (·.state) ≠ some .stock ↔ (findSlab s p.slab).all (·.state != .stock) = true := by
      cases findSlab s p.slab <;> simp
    have held : isHeld s p.slab = false ↔ (claimOn s p.slab).all (·.stage != .held) = true := by
      rw [← not_isHeld_eq_all]
      simp
    simp only [Staged.plan?, Option.any_some, Option.elim_some, Option.getD_some, beq_self_eq_true, Bool.not_true,
      Bool.false_eq_true, if_false]
    exact if_congr slab rfl (if_congr held rfl rfl)
  | loading p => simp [Staged.plan?]
  | empty | rejected p why | stale p cause => simp [Staged.plan?]

/-! ### Stopping and aborting -/

/-- R86: the checks of ABORT PLAN. -/
theorem runAbortPlan_refused {s : State} (room : roomToAnswer s) :
    (s.active.state = .empty ∨ s.active.state = .done → runAbortPlan (popInbound s) = refusedBy 0x0D .noPlan s) ∧
    (s.active.state = .ending ∨ s.active.state = .aborted → runAbortPlan (popInbound s) = refusedBy 0x0D .state s) := by
  constructor <;> rintro (state | state) <;> simp only [runAbortPlan, popInbound_active, state] <;>
    exact refuse_popInbound _ _ room

/-- R82, R86: the record of an abort that no report brings, where one is open. -/
theorem stopRecord_of_open {s : State} {r : FaultRecord} (cause : Cause) (fault : s.active.fault = some r) :
    stopRecord s cause = { r with cls := .abort, cause := cause, prior := some r.cause, plan := s.active.plan.number
                                  origin := cause.origin } := by
  simp [stopRecord, abortRecord, fault]

/-- R86, R87: a RUNNING plan's order stopped. -/
theorem stopRunning_eq (o : Order) (cause : Cause) {s : State} (order : s.active.order = some o) :
    stopRunning o cause s =
      let v := orderFrame (.stopOrder o.tag o.segment) s
      setActiveState .ending { v with active := { v.active with
        order := some { o with stopped := true }, overrun := none, stopWait := some 10000
        fault := some (match s.active.fault with
          | some r => { r with cls := .abort, cause := cause, prior := some r.cause, plan := s.active.plan.number
                               origin := cause.origin }
          | none => ⟨.abort, cause, none, s.active.plan.number, s.active.nextSeg, o.kind, o.start, cause.origin⟩) } } := by
  cases fault : s.active.fault with
  | some r => simp only [stopRunning, stopRecord_of_open cause fault, stopOrder]
  | none => simp only [stopRunning, stopRecord, fault, order, abortRecord, stopOrder, Option.elim]

/-- R87: the overrun timer of a RUNNING plan. -/
theorem exec_overrunExpiry_of_running {s : State} {o : Order} (timer : s.active.overrun.isSome = true)
    (running : s.active.state = .running) (order : s.active.order = some o) : exec .overrunExpiry s =
      .next (stopRunning o .overrun { s with active := { s.active with overrun := none } }) := by
  simp only [exec, execOverrunExpiry]
  rw [if_pos timer, running, order]

/-- R89: the segments charged are those whose flag is set. -/
theorem chargedCount_eq (s : State) : chargedCount s = s.active.charged.count true := by
  simp [chargedCount, List.count_eq_length_filter]

/-- R6: a change of a record's state touches the register and the store's queue alone. -/
theorem setSlabState_frame (id : Nat) (st : SlabState) (s : State) : setSlabState id st s =
    { s with register := (setSlabState id st s).register, store := (setSlabState id st s).store } := by
  simp only [setSlabState, storeSlab]
  cases slabPlace (mapSlab id (fun r => { r with state := st }) s) id with
  | none => rfl
  | some i =>
    simp only [Option.elim, queueWrite]
    split <;> rfl

/-- R6: a change of a record's state does not read the active slot. -/
theorem setSlabState_with_active (id : Nat) (st : SlabState) (s : State) (a : Active) :
    setSlabState id st { s with active := a } = { setSlabState id st s with active := a } := by
  simp only [setSlabState, storeSlab, mapSlab, slabPlace]
  cases (s.register.places.map (Option.map fun r => if r.id = id then { r with state := st } else r)).findIdx?
    fun o => o.any (·.id == id) with
  | none => rfl
  | some i =>
    simp only [Option.elim, queueWrite]
    split <;> rfl

/-- R89: the state as the water share unit is told of an ABORTED plan. -/
def abortedPlan (record : FaultRecord) (s : State) : State :=
  let v := setSlabState s.active.plan.slab .cutOpen s
  { v with
    active := { s.active with
      state := .aborted, pending := Pending.none, fault := some record, plan := { s.active.plan with reservations := 0 } }
    register := { v.register with reservations := v.register.reservations - s.active.plan.reservations }
    water := if s.active.order = none then
      { s.water with
        idleRecycled := add32 s.water.idleRecycled s.water.segRecycled
        idleFresh := add32 s.water.idleFresh s.water.segFresh
        segRecycled := 0, segFresh := 0 } else s.water }

/-- R89: going ABORTED, as the water share unit and the host are told of it. -/
theorem abortPlan_report (record : FaultRecord) (s : State) : abortPlan record s =
    report (.planAborted record s.active.nextSeg (s.active.charged.count true) s.active.actual)
      (tellWater (abortedPlan record s)) := by
  rw [← chargedCount_eq]
  simp only [abortPlan, setSlabState_with_active, abortedPlan]
  rw [setSlabState_frame s.active.plan.slab .cutOpen s]
  cases s.active.order <;> rfl

/-! ### Segment reports -/

/-- R74: the state in which a matching report is charged. -/
def reportTaken (command tag : Nat) (s : State) : State :=
  { s with
    host := { s.host with
      inbound := s.host.inbound.tail, taken := (s.host.inbound.take 1).map inboundSize ++ s.host.taken
      outbound := (s.host.outbound.filter fun f => f.begun || f.report.orderTag != some tag) ++
        [⟨.accepted command .bare, false⟩] }
    active := { s.active with order := none, overrun := none, stopWait := none } }

/-- R77: the causes a SEGMENT FAULT can name. -/
theorem causeOfCode_eq_none_iff (code : Nat) : causeOfCode code = none ↔ code = 0 ∨ 4 < code := by
  obtain _ | _ | _ | _ | _ | n := code <;> simp [causeOfCode]

section Report
variable {command tag length time : Nat} {short : Bool} {judge : Order → Nat → State → State} {s : State}

/-- R71, R74: the unread order frames withdrawn leave room for the answer. -/
theorem endOrder_accept_withdrawOrders (room : roomToAnswer s) :
    endOrder (accept command (withdrawOrders tag (popInbound s))) = reportTaken command tag s := by
  have sub : (s.host.outbound.filter fun f => f.begun || f.report.orderTag != some tag).Sublist s.host.outbound :=
    List.filter_sublist
  have frames := sub.length_le
  have bytes := heldBytes_sublist sub
  obtain ⟨few, light⟩ := room
  rw [accept, acceptWith, report_admitted ((admits_iff _ _).mpr ⟨?_, ?_⟩)]
  · rfl
  · simp only [withdrawOrders, popInbound]
    omega
  · simp only [withdrawOrders, popInbound, Report.size_accepted_bare]
    omega

/-- R74: a report with no order in flight, or another tag. -/
theorem takeReport_of_unmatched (room : roomToAnswer s) (other : ∀ o, s.active.order = some o → o.tag ≠ tag) :
    takeReport command tag short length time judge (popInbound s) = refusedBy command .staleTag s := by
  have none : s.active.order.filter (·.tag == tag) = none := by
    rw [Option.filter_eq_none_iff]
    exact fun o order => by simpa using other o order
  simp only [takeReport, popInbound_active, none]
  exact refuse_popInbound command .staleTag room

/-- R74: a matching report ends the order and is charged, and the slot judged. -/
theorem takeReport_of_matched (room : roomToAnswer s) {o : Order} (order : s.active.order = some o)
    (same : o.tag = tag) : takeReport command tag short length time judge (popInbound s) =
      judge o (min length o.ordered) (chargeReport o short length time (reportTaken command tag s)) := by
  have found : s.active.order.filter (·.tag == tag) = some o := by simp [order, same]
  simp only [takeReport, popInbound_active, found, endOrder_accept_withdrawOrders room]

end Report

/-! ### The slot after a report -/

section After
variable {o : Order} {length : Nat} {s : State}

/-- R75: a RUNNING plan goes on: the next order when no cause is pending, PAUSED otherwise. -/
theorem goOn_eq (s : State) : goOn s =
    if s.active.pending = ⟨false, false, false, false, false⟩ then issuePlan s else setActiveState .paused s := by
  simp only [goOn, Pending.isEmpty_iff]

/-- R75: every segment is finished when the index has reached their number. -/
theorem allFinished_iff (s : State) : allFinished s = true ↔ s.active.plan.segments.length ≤ s.active.nextSeg := by
  simp [allFinished]

/-- R76: the resume point recorded. -/
theorem recordProgress_of_short (h : length < o.ordered) : recordProgress o length s =
    { s with active := { s.active with resume := some (reachedPoint s o length) } } := if_pos h

/-- R76: the segment finished. -/
theorem recordProgress_of_full (h : o.ordered ≤ length) : recordProgress o length s = advanceSegment s :=
  if_neg (by omega)

/-- R76: the slot of a RUNNING plan after a PAUSED. -/
theorem afterPaused_of_running (running : s.active.state = .running) : afterPaused o length s =
    let s := recordProgress o length s
    if s.active.plan.segments.length ≤ s.active.nextSeg then completePlan s
    else if o.held then goOn s
    else pauseOn .machinePause s.active.nextSeg o length s := by
  rw [afterPaused, running]
  simp only [allFinished_iff]

/-- R77: a count at its segment after it has risen. -/
theorem countFault_at {segment : Nat} (has : segment < s.active.faultCounts.length) :
    (countFault segment s).active.faultCounts.getD segment 0 = min 3 (s.active.faultCounts.getD segment 0 + 1) := by
  simp [countFault, List.getD_eq_getElem?_getD, List.getElem?_set_self has]

/-- R78, R79: the record of a report that ends the plan. -/
theorem abortOnReport_eq (cause : Cause) (prior : Option Cause) : abortOnReport cause prior o length s =
    abortPlan ⟨.abort, cause, if s.active.fault.isSome then s.active.fault.map (·.cause) else prior,
      s.active.plan.number, o.segment, o.kind, reachedPoint s o length, .machine⟩ s := by
  cases fault : s.active.fault <;> simp [abortOnReport, abortRecord, fault]

end After

end Sys2Proof.Machine

namespace Sys2Proof.Proofs

open Sys2Proof Sys2Proof.Machine Sys2Proof.Safety

/-- Settles O38: by the table of START PLAN. -/
theorem startPlanMovesThePlan : Obligations.StartPlanMovesThePlan := by
  intro s hready
  have runs := exec_checked_of_ready (c := .startPlan) (command := 0x0C) (table := startPlanTable)
    (effect := fun s => startPlan (s.staged.plan?.getD Plan.blank) s) rfl
    (fun t => by rw [runStartPlan_eq_checked]; simp only [accept_staged]) rfl hready
  refine ⟨runs.1, fun p passed staged => ?_⟩
  rw [runs.2 passed]
  simp only [answered, staged, Staged.plan?, Option.getD_some]
  rfl

/-- Settles O42: by the state of the slot. -/
theorem abortAndOverrunStopTheOrder : Obligations.AbortAndOverrunStopTheOrder := by
  refine fun s => ⟨fun hready => ?_, fun o timer running order => ?_⟩
  · have takes : exec .abortPlan s = .next (launchWrite (runAbortPlan (popInbound s))) := takeCommand_of_ready hready
    have room := hready.2
    rw [takes]
    refine ⟨fun state => ?_, fun state => ?_, fun r paused fault => ?_, fun o running order => ?_⟩
    · rw [(runAbortPlan_refused room).1 state]
    · rw [(runAbortPlan_refused room).2 state]
    · have opened := stopRecord_of_open (s := popInbound s) .hostAbort fault
      simp only [runAbortPlan, popInbound_active, paused, opened, accept_popInbound 0x0D room]
      rfl
    · simp only [runAbortPlan, popInbound_active, running, order, accept_popInbound 0x0D room,
        stopRunning_eq (s := acceptedBy 0x0D s) o .hostAbort order]
      rfl
  · rw [exec_overrunExpiry_of_running timer running order,
      stopRunning_eq (s := { s with active := { s.active with overrun := none } }) o .overrun order]
    rfl

/-- Settles O43: the state told to the water share unit, block by block. -/
theorem abortedPlanLetsGo : Obligations.AbortedPlanLetsGo := by
  intro record s
  refine ⟨abortedPlan record s, setSlabState s.active.plan.slab .cutOpen s, abortPlan_report record s, rfl, rfl, rfl, rfl, ?_, ?_⟩
  · rfl
  · rw [abortedPlan, setSlabState_frame s.active.plan.slab .cutOpen s]

/-- Settles O44: by whether the tag matches the order in flight. -/
theorem segmentReportsEndTheOrder : Obligations.SegmentReportsEndTheOrder := by
  intro tag length time code s matched unmatched ended
  refine ⟨fun hready => ?_, fun hready => ?_, fun hready => ?_⟩
  · have takes : exec (.segmentDone tag length time) s =
      .next (launchWrite (runSegmentDone tag length time (popInbound s))) := takeCommand_of_ready hready
    rw [takes]
    exact ⟨fun other => by rw [runSegmentDone, takeReport_of_unmatched hready.2 other],
      fun o ⟨order, same⟩ => by rw [runSegmentDone, takeReport_of_matched hready.2 order same]; rfl⟩
  · have takes : exec (.segmentPaused tag length time) s =
      .next (launchWrite (runSegmentPaused tag length time (popInbound s))) := takeCommand_of_ready hready
    rw [takes]
    exact ⟨fun other => by rw [runSegmentPaused, takeReport_of_unmatched hready.2 other],
      fun o ⟨order, same⟩ => by rw [runSegmentPaused, takeReport_of_matched hready.2 order same]; rfl⟩
  · have takes : exec (.segmentFault tag code length time) s =
      .next (launchWrite (runSegmentFault tag code length time (popInbound s))) := takeCommand_of_ready hready
    rw [takes]
    refine ⟨fun unknown => ?_, fun low high other => ?_, fun o cause known ⟨order, same⟩ => ?_⟩
    · rw [runSegmentFault, (causeOfCode_eq_none_iff code).mpr unknown, refuse_popInbound 0x11 .range hready.2]
    · obtain ⟨cause, known⟩ := Option.ne_none_iff_exists'.mp fun none => by
        have := (causeOfCode_eq_none_iff code).mp none
        omega
      simp only [runSegmentFault, known, takeReport_of_unmatched hready.2 other]
    · simp only [runSegmentFault, known, takeReport_of_matched hready.2 order same]
      rfl

/-- Settles O46: by the state of the slot and whether the segment is finished. -/
theorem doneAndPausedMoveThePlan : Obligations.DoneAndPausedMoveThePlan := by
  intro o length s next last goesOn point resumed
  refine ⟨fun running => ?_, fun running short more => ?_, fun running full => ?_, fun r ending fault => ?_,
    fun aborted => ?_⟩
  · simp only [afterDone, running, allFinished_iff, goOn_eq]
    rfl
  · rw [afterPaused_of_running running, recordProgress_of_short short]
    exact (if_neg (not_le.mpr more)).trans (if_congr Iff.rfl (goOn_eq resumed) rfl)
  · rw [afterPaused_of_running running, recordProgress_of_full full]
    exact if_congr Iff.rfl rfl (if_congr Iff.rfl (goOn_eq next) rfl)
  · simp only [afterDone, afterPaused, ending, endingRecord, fault, Option.getD_some]
    exact ⟨rfl, rfl⟩
  · simp only [afterDone, afterPaused, aborted]
    trivial

/-- Settles O47: by the state of the slot and the cause. -/
theorem faultReportsPauseOrAbort : Obligations.FaultReportsPauseOrAbort := by
  intro cause o length s g point count counted record
  refine ⟨fun running cls => ?_, fun running cls at' more => ?_, fun r ending fault => ?_, fun aborted => ?_⟩
  · have cls : cause.isAbortClass = true := by obtain rfl | rfl := cls <;> rfl
    simp only [afterFault, running, cls, if_true, abortOnReport_eq]
    rfl
  · have notAbort : ¬ cause.isAbortClass = true := by obtain rfl | rfl := cls <;> decide
    have stall : afterFault cause o length s = afterStall cause o length s := by
      simp only [afterFault, running, if_neg notAbort]
    have after : (countFault o.segment s).active.faultCounts.getD o.segment 0 = count := countFault_at at'
    have progress : o.kind = .new ∨ 0 < length → ¬ (o.kind = .resume ∧ length = 0) := by
      rintro (new | some) ⟨resume, none⟩
      · rw [new] at resume
        cases resume
      · omega
    rw [stall, afterStall]
    simp only [after]
    refine ⟨fun resume none => ?_, fun h third => ?_, fun h few short => ?_, fun h few full => ?_⟩
    · rw [if_pos ⟨resume, none⟩, abortOnReport_eq]
      rfl
    · rw [if_neg (progress h), if_pos third, abortOnReport_eq]
      rfl
    · rw [if_neg (progress h), if_neg (by omega), recordProgress_of_short short, if_neg]
      · rfl
      · rw [allFinished_iff]
        exact not_le.mpr more
    · rw [if_neg (progress h), if_neg (by omega), recordProgress_of_full full]
      exact if_congr (allFinished_iff _) rfl rfl
  · simp only [afterFault, ending, endingRecord, fault, Option.getD_some]
  · simp only [afterFault, aborted]

end Sys2Proof.Proofs

/-! PROOF. The transmit queue's places and drops, TAKE, and the staged slot emptied (R25, R28, R29, R45, R63, R141, R161,
R162). -/

namespace Sys2Proof.Machine

open Sys2Proof Sys2Proof.Safety

/-! ### The place of a notice, and the one dropped -/

/-- R161: a notice stands after every entry of its own or a higher precedence. -/
theorem insertTx_eq (e : TxEntry) (q : List TxEntry) : insertTx e q =
    q.takeWhile (fun x => decide (x.notice.kind ≤ e.notice.kind)) ++ e ::
      q.dropWhile (fun x => decide (x.notice.kind ≤ e.notice.kind)) := by
  induction q with
  | nil => rfl
  | cons x rest ih =>
    rw [insertTx]
    by_cases before : e.notice.kind < x.notice.kind
    · rw [if_pos before, List.takeWhile_cons_of_neg (by simpa using before), List.dropWhile_cons_of_neg (by simpa using before)]
      rfl
    · have after : decide (x.notice.kind ≤ e.notice.kind) = true := by simpa using before
      rw [if_neg before, List.takeWhile_cons_of_pos (by exact after), List.dropWhile_cons_of_pos (by exact after), ih]
      rfl

/-- R162: `b` is the one of two to be dropped: of no higher precedence, and no older where they are equal. -/
def dropsAfter (a b : TxEntry) : Prop :=
  a.notice.kind < b.notice.kind ∨ (a.notice.kind = b.notice.kind ∧ a.age ≤ b.age)

theorem dropsAfter.refl (a : TxEntry) : dropsAfter a a := .inr ⟨rfl, le_rfl⟩

theorem dropsAfter.trans {a b c : TxEntry} (first : dropsAfter a b) (second : dropsAfter b c) : dropsAfter a c := by
  unfold dropsAfter at *
  omega

/-- R162: of the entry kept so far and the next, the one to be dropped. -/
def laterOf (best : Option TxEntry) (e : TxEntry) : Option TxEntry :=
  match best with
  | none => some e
  | some b => if b.notice.kind < e.notice.kind ∨ (b.notice.kind = e.notice.kind ∧ b.age < e.age) then some e else best

theorem laterOf_spec (best : Option TxEntry) (e : TxEntry) : ∃ w, laterOf best e = some w ∧ dropsAfter e w ∧
    ∀ b, best = some b → dropsAfter b w := by
  cases best with
  | none => exact ⟨e, rfl, .refl e, fun b none => nomatch none⟩
  | some b =>
    by_cases later : b.notice.kind < e.notice.kind ∨ (b.notice.kind = e.notice.kind ∧ b.age < e.age)
    · refine ⟨e, if_pos later, .refl e, fun x same => ?_⟩
      cases same
      exact later.imp id fun ⟨kind, age⟩ => ⟨kind, age.le⟩
    · refine ⟨b, if_neg later, ?_, fun x same => ?_⟩
      · unfold dropsAfter
        omega
      · cases same
        exact .refl b

theorem foldl_laterOf (p : List TxEntry) (best : Option TxEntry) :
    (∀ w, p.foldl laterOf best = some w → (∀ e ∈ p, dropsAfter e w) ∧ ∀ b, best = some b → dropsAfter b w) ∧
    (p.foldl laterOf best = none → p = []) := by
  induction p generalizing best with
  | nil => exact ⟨fun w found => ⟨by simp, fun b same => by cases same.symm.trans found; exact .refl _⟩, fun _ => rfl⟩
  | cons e rest ih =>
    obtain ⟨w, found, mine, kept⟩ := laterOf_spec best e
    rw [List.foldl_cons, found]
    refine ⟨fun v last => ?_, fun none => ?_⟩
    · obtain ⟨others, first⟩ := (ih (some w)).1 v last
      have step := first w rfl
      refine ⟨fun x mem => ?_, fun b same => (kept b same).trans step⟩
      obtain rfl | mem := List.mem_cons.mp mem
      · exact mine.trans step
      · exact others x mem
    · obtain rfl := (ih (some w)).2 none
      cases none

/-- R162: the entry chosen is the one to be dropped of those that wait. -/
theorem worstWaiting_last {q : List TxEntry} {w e : TxEntry} (h : worstWaiting q = some w) (mem : e ∈ q)
    (waits : e.sending = false) : dropsAfter e w :=
  ((foldl_laterOf (q.filter (!·.sending)) none).1 w h).1 e (List.mem_filter.mpr ⟨mem, by simp [waits]⟩)

/-- R162: none is chosen where none waits. -/
theorem sending_of_worstWaiting_eq_none {q : List TxEntry} {e : TxEntry} (h : worstWaiting q = none) (mem : e ∈ q) :
    e.sending = true := by
  have none := (foldl_laterOf (q.filter (!·.sending)) none).2 h
  simpa using List.filter_eq_nil_iff.mp none e mem

section Enqueue
variable {f : Floor} {n : Notice} {owner : Option Nat}

/-- R161: a notice handed to a queue with room. -/
theorem enqueue_of_room (room : f.queue.length < 16) : f.enqueue n owner =
    ({ f with queue := insertTx ⟨n, owner, 0, f.nextAge, false, false⟩ f.queue, nextAge := f.nextAge + 1 }, none) := by
  simp [Floor.enqueue, room]

/-- R162: a full queue drops its worst for a notice of a higher precedence. -/
theorem enqueue_of_worse (full : 16 ≤ f.queue.length) {w : TxEntry} (worst : worstWaiting f.queue = some w)
    (worse : n.kind < w.notice.kind) : f.enqueue n owner =
      ({ f with queue := insertTx ⟨n, owner, 0, f.nextAge, false, false⟩ (f.queue.erase w), nextAge := f.nextAge + 1 },
        some w) := by
  simp [Floor.enqueue, full.not_gt, worst, worse]

/-- R162: a full queue whose waiting entries have all at least the precedence of a notice drops it. -/
theorem enqueue_of_no_worse (full : 16 ≤ f.queue.length)
    (none : ∀ x ∈ f.queue, x.sending = false → x.notice.kind ≤ n.kind) : f.enqueue n owner =
      ({ f with nextAge := f.nextAge + 1 }, some ⟨n, owner, 0, f.nextAge, false, false⟩) := by
  cases worst : worstWaiting f.queue with
  | none => simp [Floor.enqueue, full.not_gt, worst]
  | some w =>
    obtain ⟨mem, waits⟩ := worstWaiting_mem worst
    have kind := none w mem waits
    simp [Floor.enqueue, full.not_gt, worst, kind.not_gt]

/-- R162: a full queue where some waiting entry has a lower precedence than a notice drops one of these. -/
theorem exists_worse (some : ∃ x ∈ f.queue, x.sending = false ∧ n.kind < x.notice.kind) : ∃ w,
    worstWaiting f.queue = .some w ∧ n.kind < w.notice.kind := by
  obtain ⟨x, mem, waits, worse⟩ := some
  cases worst : worstWaiting f.queue with
  | none =>
    have := sending_of_worstWaiting_eq_none worst mem
    simp [waits] at this
  | some w =>
    refine ⟨w, rfl, ?_⟩
    have := worstWaiting_last worst mem waits
    unfold dropsAfter at this
    omega

end Enqueue

section Hand
variable {n : Notice} {owner : Option Nat} {s : State}

/-- R161: a notice handed to a queue with room. -/
theorem handNotice_of_room (room : s.floor.queue.length < 16) : handNotice n owner s = handed n owner s := by
  rw [handNotice, enqueue_of_room room]
  rfl

/-- R162: a notice handed to a full queue, one of lower precedence dropped for it. -/
theorem handNotice_of_worse (full : 16 ≤ s.floor.queue.length) {w : TxEntry} (worst : worstWaiting s.floor.queue = some w)
    (worse : n.kind < w.notice.kind) : handNotice n owner s = trap (.lineBacklog w.notice.kind) 0 none (ownerDropped w
      { s with floor := { s.floor with
        queue := insertTx ⟨n, owner, 0, s.floor.nextAge, false, false⟩ (s.floor.queue.erase w)
        nextAge := s.floor.nextAge + 1, backlogDrops := min 65535 (s.floor.backlogDrops + 1) } }) := by
  rw [handNotice, enqueue_of_worse full worst worse]
  rfl

/-- R162: a notice handed to a full queue and itself dropped. -/
theorem handNotice_of_no_worse (full : 16 ≤ s.floor.queue.length)
    (none : ∀ x ∈ s.floor.queue, x.sending = false → x.notice.kind ≤ n.kind) : handNotice n owner s =
      trap (.lineBacklog n.kind) 0 Option.none (ownerDropped ⟨n, owner, 0, s.floor.nextAge, false, false⟩
        { s with floor := { s.floor with
          nextAge := s.floor.nextAge + 1, backlogDrops := min 65535 (s.floor.backlogDrops + 1) } }) := by
  rw [handNotice, enqueue_of_no_worse full none]
  rfl

/-- R29, R15, R113: the owners that act on a drop are those of CLAIMs of entries that have not yielded. -/
theorem ownerDropped_of_other {d : TxEntry} (other : d.notice.kind ≠ 2 ∨ d.owner = none ∨ d.yielded = true) (s : State) :
    ownerDropped d s = s := by
  obtain ⟨n, owner, attempts, age, sending, yielded⟩ := d
  cases n with
  | claim r job =>
    cases owner with
    | none => rfl
    | some h =>
      have : yielded = true := by simpa [Notice.kind] using other
      simp [ownerDropped, this]
  | poll | release | demand | slab | retire | hello => rfl

end Hand

/-! ### POLLs -/

section Poll
variable {h left : Nat} {e : ClaimEntry} {s : State}

/-- R25: a POLL handed to a queue with room. -/
theorem handPoll_of_room (found : claimOf s h = some e) (room : s.floor.queue.length < 16) : handPoll (left + 1) h s =
    handed (.poll e.resource) (some h) (mapClaim h (fun x => { x with polls := x.polls + 1 }) s) := by
  simp only [handPoll, found, mapClaim, enqueue_of_room room]
  rfl

/-- A claim changed is found by its handle. -/
theorem claimOf_mapClaim_of_found {f : ClaimEntry → ClaimEntry} (keeps : ∀ e, (f e).handle = e.handle)
    (found : claimOf s h = some e) : claimOf (mapClaim h f s) h = some (f e) := by
  have handle : e.handle = h := by simpa using List.find?_some found
  rw [claimOf_mapClaim keeps, found, Option.map_some, if_pos handle]

/-- R28: an entry ended LINE NOISY. -/
theorem claimNoisy_eq (found : claimOf s h = some e) : claimNoisy h s =
    if e.stage = .tentative then handNotice (.release e.resource) none (endClaim h .lineNoisy none s)
    else endClaim h .lineNoisy none s := by
  simp only [claimNoisy, found]

end Poll

/-! ### TAKE -/

/-- R25: TAKE runs the checks of its table. -/
theorem runTake_eq_checked (slab job : Nat) (s : State) : runTake slab job s =
    checked 0x04 (takeTable slab job s) (fun s => makeClaim slab (.slab job) (accept 0x04 s)) s := by
  have checks : takeChecks slab job s = takeTable slab job s := by
    simp only [takeChecks, takeTable, isJobNumber_eq_not]
    cases findSlab s slab <;> simp [Bool.or_assoc]
  rw [runTake, checks]

/-- R25, R39: an entry made stands last and is found by its handle. -/
theorem claimOf_appended {s : State} {e : ClaimEntry} (fresh : ∀ x ∈ s.claims.entries, x.handle ≠ e.handle) {n : Nat} :
    claimOf { s with claims := { s.claims with entries := s.claims.entries ++ [e], nextHandle := n } } e.handle = some e := by
  have none : s.claims.entries.find? (·.handle == e.handle) = none :=
    List.find?_eq_none.mpr fun x mem => by simpa using fresh x mem
  simp [claimOf, List.find?_append, none]

/-- A change of an entry that stands last and alone has its handle. -/
theorem mapClaim_appended {s : State} {e : ClaimEntry} (fresh : ∀ x ∈ s.claims.entries, x.handle ≠ e.handle) {n : Nat}
    (f : ClaimEntry → ClaimEntry) :
    mapClaim e.handle f { s with claims := { s.claims with entries := s.claims.entries ++ [e], nextHandle := n } } =
      { s with claims := { s.claims with entries := s.claims.entries ++ [f e], nextHandle := n } } := by
  have others : s.claims.entries.map (fun x => if x.handle = e.handle then f x else x) = s.claims.entries := by
    conv => rhs; rw [← List.map_id s.claims.entries]
    exact List.map_congr_left fun x mem => if_neg (fresh x mem)
  simp [mapClaim, List.map_append, others]

/-- R25, R39: an entry made with room for its first POLL. -/
theorem makeClaim_of_room {resource : Nat} {purpose : ClaimPurpose} {s : State}
    (fresh : ∀ x ∈ s.claims.entries, x.handle ≠ s.claims.nextHandle) (room : s.floor.queue.length < 16) :
    makeClaim resource purpose s = handed (.poll resource) (some s.claims.nextHandle) { s with
      claims := { s.claims with
        entries := s.claims.entries ++ [⟨s.claims.nextHandle, resource, purpose, .polling, 1, .unsent, none⟩]
        nextHandle := s.claims.nextHandle + 1 } } := by
  have found := claimOf_appended (e := ⟨s.claims.nextHandle, resource, purpose, .polling, 0, .unsent, none⟩) fresh
    (n := s.claims.nextHandle + 1)
  have mapped := mapClaim_appended (e := ⟨s.claims.nextHandle, resource, purpose, .polling, 0, .unsent, none⟩) fresh
    (n := s.claims.nextHandle + 1) (fun x => { x with polls := x.polls + 1 })
  rw [makeClaim, handPoll_of_room found room, mapped]

/-! ### The staged slot emptied -/

/-- A plan's release does not read the staged slot. -/
theorem releaseJobs_with_staged (jobs : List Nat) (s : State) (x : Staged) :
    releaseJobs jobs { s with staged := x } = { releaseJobs jobs s with staged := x } := by
  induction jobs generalizing s with
  | nil => rfl
  | cons j rest ih => exact ih (mapJob j _ s)

/-- R63: a VALID plan discarded. -/
theorem discardStaged_of_valid {s : State} {p : Plan} (valid : s.staged = .valid p) :
    discardStaged s = { releasePlan p s with staged := .empty } := by
  simp only [discardStaged, valid]
  exact releaseJobs_with_staged _ (dropReservations p.reservations s) .empty

/-- R63: any other content discarded. -/
theorem discardStaged_of_not_valid {s : State} (other : ∀ p, s.staged ≠ .valid p) :
    discardStaged s = { s with staged := .empty } := by
  unfold discardStaged
  split
  · next p valid => exact absurd valid (other p)
  · next empty => rw [← empty]
  all_goals rfl

/-- R141: changes of distinct jobs, each made once, are one change of the records they name. -/
theorem foldl_mapJob {f : JobRecord → JobRecord} (keeps : ∀ j, (f j).number = j.number) {jobs : List Nat}
    (distinct : jobs.Nodup) (s : State) : jobs.foldl (fun s j => mapJob j f s) s =
      { s with jobs := s.jobs.map (Option.map fun j => if j.number ∈ jobs then f j else j) } := by
  induction jobs generalizing s with
  | nil => simp
  | cons n rest ih =>
    obtain ⟨other, distinct⟩ := List.nodup_cons.mp distinct
    rw [List.foldl_cons, ih distinct]
    simp only [mapJob, List.map_map, Option.map_comp_map]
    have step : ∀ j : JobRecord, (if (if j.number = n then f j else j).number ∈ rest then f (if j.number = n then f j else j)
        else if j.number = n then f j else j) = if j.number ∈ n :: rest then f j else j := by
      intro j
      by_cases here : j.number = n <;> simp [here, keeps, other]
    simp only [Function.comp_def, step]

end Sys2Proof.Machine

namespace Sys2Proof.Proofs

open Sys2Proof Sys2Proof.Machine Sys2Proof.Safety

/-- Settles O32: by the table of TAKE. -/
theorem takeMakesAPollingEntry : Obligations.TakeMakesAPollingEntry := by
  intro slab job s hready
  have runs := exec_checked_of_ready (c := .take slab job) (table := takeTable slab job)
    (effect := makeClaim slab (.slab job)) rfl (runTake_eq_checked slab job) rfl hready
  refine ⟨runs.1, fun passed fresh => ⟨fun room => ?_, runs.2 passed⟩⟩
  rw [runs.2 passed, makeClaim_of_room (s := acceptedBy 0x04 s) fresh room]
  rfl

/-- Settles O34: by the room of the queue and what waits in it. -/
theorem handedNoticeTakesItsPlace : Obligations.HandedNoticeTakesItsPlace := by
  intro n owner s
  refine ⟨handNotice_of_room, insertTx_eq, fun full ages => ?_, fun d => ⟨fun r job h claim own live => ?_,
    fun other => ownerDropped_of_other other s⟩, fun h left e found => ?_⟩
  · by_cases worse : ∃ x ∈ s.floor.queue, x.sending = false ∧ n.kind < x.notice.kind
    · obtain ⟨w, worst, kind⟩ := exists_worse worse
      obtain ⟨mem, waits⟩ := worstWaiting_mem worst
      refine ⟨w, .inr ⟨mem, waits⟩, ?_, ?_⟩
      · rintro e (rfl | ⟨here, waiting⟩)
        · exact .inl kind
        · exact worstWaiting_last worst here waiting
      · have other : w ≠ ⟨n, owner, 0, s.floor.nextAge, false, false⟩ := by
          rintro rfl
          exact absurd (ages _ mem) (lt_irrefl _)
        rw [handNotice_of_worse full worst kind, if_neg other]
    · have none : ∀ x ∈ s.floor.queue, x.sending = false → x.notice.kind ≤ n.kind :=
        fun x mem waits => not_lt.mp fun kind => worse ⟨x, mem, waits, kind⟩
      refine ⟨⟨n, owner, 0, s.floor.nextAge, false, false⟩, .inl rfl, ?_, ?_⟩
      · rintro e (rfl | ⟨here, waits⟩)
        · exact dropsAfter.refl _
        · exact (none e here waits).lt_or_eq.imp id fun same => ⟨same, (ages e here).le⟩
      · rw [handNotice_of_no_worse full none]
        simp only [if_true]
  · simp only [ownerDropped, claim, own, live]
    rfl
  · intro polled dropped
    refine ⟨handPoll_of_room found, fun full worse => ?_, fun full none => ?_⟩
    · obtain ⟨w, worst, kind⟩ := exists_worse (n := .poll e.resource) worse
      obtain ⟨mem, waits⟩ := worstWaiting_mem worst
      refine ⟨w, mem, waits, fun x here waiting => worstWaiting_last worst here waiting, ?_⟩
      have notPoll : ¬ w.notice.kind = 1 := Nat.ne_of_gt kind
      simp only [handPoll, found, mapClaim, enqueue_of_worse full worst kind, if_neg notPoll]
      rfl
    · have found' : claimOf (dropped s.floor.queue) h = some { e with polls := e.polls + 1 } :=
        claimOf_mapClaim_of_found (f := fun x => { x with polls := x.polls + 1 }) (fun _ => rfl) found
      have hand : handPoll (left + 1) h s = trap (.lineBacklog 1) 0 Option.none
          (if e.polls + 1 < 4 then handPoll left h (dropped s.floor.queue) else claimNoisy h (dropped s.floor.queue)) := by
        simp only [handPoll, found, mapClaim, enqueue_of_no_worse (n := .poll e.resource) full none]
        rfl
      refine ⟨fun few => by rw [hand, if_pos few], fun spent => ?_⟩
      rw [hand, if_neg (by omega), claimNoisy_eq found']

/-- Settles O35: by the content of the staged slot, and the distinct jobs of a plan. -/
theorem planHeadAndDropPlanEmptyTheSlot : Obligations.PlanHeadAndDropPlanEmptyTheSlot := by
  refine ⟨fun plan slab s => ⟨fun hready => ?_, fun hready => ?_⟩, fun jobs s distinct => ?_, rfl,
    fun pieces p => ⟨distinctJobs_nodup pieces, mem_distinctJobs_iff pieces p.job, ?_⟩⟩
  · have takes : exec (.planHead plan slab) s = .next (launchWrite (runPlanHead plan slab (popInbound s))) :=
      takeCommand_of_ready hready
    rw [takes, runPlanHead, refuse_popInbound 0x06 .range hready.2, accept_popInbound 0x06 hready.2]
    refine ⟨fun unfit => ?_, fun some fit other => ?_, fun p some fit valid => ?_⟩
    · rw [if_pos (unfit.imp id fun not => by simpa [← isSlabId_iff] using not)]
    · rw [if_neg (by simp [some, (isSlabId_iff slab).mpr fit]), discardStaged_of_not_valid (s := acceptedBy 0x06 s) other]
      rfl
    · rw [if_neg (by simp [some, (isSlabId_iff slab).mpr fit]), discardStaged_of_valid (s := acceptedBy 0x06 s) valid]
      rfl
  · have takes : exec .dropPlan s = .next (launchWrite (runDropPlan (popInbound s))) := takeCommand_of_ready hready
    rw [takes, runDropPlan, refuse_popInbound 0x0B .noPlan hready.2, accept_popInbound 0x0B hready.2]
    refine ⟨fun empty => ?_, fun some other => ?_, fun p valid => ?_⟩
    · rw [if_pos (by exact empty)]
    · rw [if_neg (by exact some), discardStaged_of_not_valid (s := acceptedBy 0x0B s) other]
    · rw [if_neg (by simp [valid]), discardStaged_of_valid (s := acceptedBy 0x0B s) valid]
      rfl
  · exact ⟨foldl_mapJob (f := fun r => { r with inUse := r.inUse + 1 }) (fun _ => rfl) distinct s,
      foldl_mapJob (f := fun r => { r with inUse := r.inUse - 1 }) (fun _ => rfl) distinct s⟩
  · rw [distinctJobs_concat]
    simp only [mem_distinctJobs_iff]

end Sys2Proof.Proofs

/-! PROOF. Postings (R143 to R149) and the purge cycle (R126 to R136, R39). -/

namespace Sys2Proof.Machine

open Sys2Proof Sys2Proof.Safety

/-! ### Postings -/

/-- R172: a report touches the host link alone. -/
theorem report_frame (r : Report) (s : State) : report r s = { s with host := (report r s).host } := by
  unfold report
  split <;> rfl

/-- R172: and looks at nothing else. -/
theorem report_host_congr (r : Report) {s t : State} (same : t.host = s.host) : (report r t).host = (report r s).host := by
  have admitted : admits r t = admits r s := by simp only [admits, same]
  simp only [report, admitted]
  split <;> simp only [same]

theorem reports_frame (rs : List Report) (s : State) : reports rs s = { s with host := (reports rs s).host } := by
  induction rs generalizing s with
  | nil => rfl
  | cons r rest ih =>
    change reports rest (report r s) = { s with host := (reports rest (report r s)).host }
    rw [ih, report_frame r s]

theorem reports_host_congr (rs : List Report) {s t : State} (same : t.host = s.host) :
    (reports rs t).host = (reports rs s).host := by
  induction rs generalizing s t with
  | nil => exact same
  | cons r rest ih => exact ih (report_host_congr r same)

/-- R137: a record found has the number asked for. -/
theorem number_of_findJob {number : Nat} {s : State} {j : JobRecord} (found : findJob s number = some j) :
    j.number = number := by
  obtain ⟨o, -, h⟩ := List.exists_of_findSome?_eq_some found
  obtain ⟨-, same⟩ := Option.filter_eq_some_iff.mp h
  simpa using same

/-- R137: a record put for that of its number leaves every record in its place. -/
theorem jobPlace_replaced {number : Nat} {new : JobRecord} (keeps : new.number = number) (s : State) :
    jobPlace (mapJob number (fun _ => new) s) number = jobPlace s number := by
  have sameNumber (j : JobRecord) : (if j.number = number then new else j).number = j.number := by
    split
    · next here => rw [here, keeps]
    · rfl
  simp only [jobPlace, mapJob, List.findIdx?_map, Function.comp_def, Option.any_map, sameNumber]

/-- R147, R148: the traps of a posting, SATURATED before JOB OVER ESTIMATE. -/
def postingTraps (number : Nat) (old new : JobRecord) : List Report :=
  (if old.saturated then [] else (firstSaturated 1 old.counts new.counts).toList.map fun k =>
      Report.trap (.saturated number k) 0 none) ++
    (if old.overEstimate then [] else (new.estimate.filter fun e => decide (e < new.total)).toList.map fun e =>
      Report.trap (.jobOverEstimate number e new.total) 0 none)

/-- R147, R148: the flags' changes as the traps they bring about. -/
theorem postingTraps_eq (number : Nat) (old new : JobRecord) (s : State) : reports (postingTraps number old new) s =
    let t := match newlySaturated old new with
      | some field => trap (.saturated number field) 0 none s
      | none => s
    if newlyOver old new then trap (.jobOverEstimate number (new.estimate.getD 0) new.total) 0 none t else t := by
  have estimate (t : State) : reports (if old.overEstimate then [] else
      (new.estimate.filter fun e => decide (e < new.total)).toList.map fun e =>
        Report.trap (.jobOverEstimate number e new.total) 0 none) t =
      if newlyOver old new then trap (.jobOverEstimate number (new.estimate.getD 0) new.total) 0 none t else t := by
    unfold newlyOver
    cases old.overEstimate with
    | true => rfl
    | false =>
      cases new.estimate with
      | none => rfl
      | some e => by_cases above : e < new.total <;> simp [Option.filter_some, above, reports, trap]
  simp only [postingTraps, reports, List.foldl_append]
  rw [← estimate]
  unfold newlySaturated
  cases old.saturated with
  | true => rfl
  | false => cases firstSaturated 1 old.counts new.counts <;> rfl

section Posting
variable {number i : Nat} {add : JobRecord → JobRecord} {old : JobRecord} {s : State}

/-- R145 to R149: a posting to a record present. -/
theorem postJob_of_found (found : findJob s number = some old) (place : jobPlace s number = some i)
    (keeps : (add old).number = old.number) : postJob number add s =
      reports (postingTraps number old (old.settle (add old)))
        (queueWrite (.job i) (mapJob number (fun _ => old.settle (add old)) s)) := by
  have number : (old.settle (add old)).number = number := keeps.trans (number_of_findJob found)
  simp only [postJob, found, storeJob_of_place ((jobPlace_replaced number s).trans place)]
  exact (postingTraps_eq ..).symm

/-- R146 to R149: what a posting leaves, block by block. -/
theorem postJob_blocks (found : findJob s number = some old) (place : jobPlace s number = some i)
    (keeps : (add old).number = old.number) :
    let t := postJob number add s
    let new := old.settle (add old)
    t = { s with jobs := t.jobs, store := t.store, host := t.host } ∧
      t.jobs = s.jobs.map (Option.map fun j => if j.number = number then new else j) ∧
      t.store = (queueWrite (.job i) s).store ∧ t.host = (reports (postingTraps number old new) s).host := by
  intro t new
  have posted : t = reports (postingTraps number old new)
      { queueWrite (.job i) s with jobs := s.jobs.map (Option.map fun j => if j.number = number then new else j) } := by
    rw [queueWrite_with_jobs]
    exact postJob_of_found found place keeps
  rw [posted, reports_frame]
  refine ⟨?_, rfl, rfl, reports_host_congr _ (queueWrite_host _ _)⟩
  unfold queueWrite
  split <;> rfl

/-- R147, R148: the flags after a posting. -/
theorem settle_eq (old added : JobRecord) : old.settle added = { added with
    total := min 4294967295 (added.machine + added.water + added.wearCents + added.disposal + added.material)
    saturated := old.saturated || (firstSaturated 1 old.counts (old.settle added).counts).isSome
    overEstimate := old.overEstimate ||
      (old.settle added).estimate.any fun e => decide (e < (old.settle added).total) } := by
  conv => lhs; unfold JobRecord.settle newlySaturated newlyOver
  cases old.saturated <;> cases old.overEstimate <;> rfl

end Posting

/-! ### The press asked for -/

section Press
variable {s : State}

/-- R129, R39: the press asked for while the request is refused at once. -/
theorem wantPress_of_refused (active : s.floor.attach = .active)
    (busy : (claimOn s (ownPress s)).isSome = true ∨ 8 ≤ s.claims.entries.length) :
    wantPress s = pressRetry { s with sump := { s.sump with state := .wantPress } } := by
  have same : claimOn { s with sump := { s.sump with state := .wantPress } } (ownPress s) = claimOn s (ownPress s) := rfl
  unfold wantPress requestPress
  rw [if_neg (by simp [active]), if_neg (by simp [active])]
  by_cases entry : (claimOn s (ownPress s)).isSome = true
  · exact if_pos entry
  · exact (if_neg entry).trans (if_pos (busy.resolve_left entry))

/-- R129, R39: the press asked for with an entry to be had. -/
theorem wantPress_of_room (active : s.floor.attach = .active) (none : claimOn s (ownPress s) = none)
    (room : s.claims.entries.length < 8) :
    wantPress s = makeClaim (ownPress s) .press { s with sump := { s.sump with state := .wantPress } } := by
  have entry : ¬ (claimOn s (ownPress s)).isSome = true := by simp [none]
  unfold wantPress requestPress
  rw [if_neg (by simp [active]), if_neg (by simp [active])]
  exact (if_neg entry).trans (if_neg (not_le.mpr room))

/-- R129: the test in IDLE. -/
theorem testThreshold_eq (s : State) : testThreshold s =
    if s.sump.state = .idle ∧ s.settings.cfg.threshold ≤ s.sump.volume ∧ s.floor.attach = .active then wantPress s
    else s := by
  simp only [testThreshold, purgeDue, Bool.and_eq_true, decide_eq_true_eq, beq_iff_eq]

/-- R134: PURGE NOW runs the checks of its table. -/
theorem runPurgeNow_eq_checked (s : State) : runPurgeNow s = checked 0x17 (purgeNowTable s)
    (fun s => (fun u => wantPress { u with sump := { u.sump with retry := none } }) (accept 0x17 s)) s := by
  simp only [runPurgeNow, purgeNowTable, checked_cons, checked_nil, beq_iff_eq, bne_iff_ne, Bool.or_eq_true]

/-- R131: the last steps of a purge's end: SUMP FULL judged, the threshold tested. -/
theorem endPurge_steps (s : State) :
    let v := s.sump.volume - s.sump.snapshot
    let a := releaseClaim (ownPress s) (queueWrite .sump { s with sump := { s.sump with purge := none, volume := v } })
    let b := report (.purgeReport s.settings.cfg.press s.sump.snapshot v (purgeElapsed s)) a
    let d := if s.settings.cfg.hardLimit ≤ s.sump.volume ∧ v < s.settings.cfg.hardLimit ∧
        s.active.pending.sumpFull = true then
      setPending { s.active.pending with sumpFull := false } b else b
    let e : State := { d with sump := { d.sump with state := .idle } }
    endPurge s = if s.settings.cfg.threshold ≤ v ∧ s.floor.attach = .active then wantPress e else e := by
  intro v a b d e
  have sump : b.sump = { s.sump with purge := none, volume := v } := by simp [b, a]
  have settings : b.settings = s.settings := by simp [b, a]
  have pending : b.active.pending = s.active.pending := by simp [b, a]
  have moves : Moves Scope.all (queueWrite .sump { s with sump := { s.sump with purge := none, volume := v } }) a :=
    releaseClaim_moves (.inl trivial) (letsGo_of_press _)
  have attach : b.floor.attach = s.floor.attach := by
    rw [report_floor, moves.attach, queueWrite_floor]
  have cleared : (if s.settings.cfg.hardLimit ≤ s.sump.volume ∧ b.sump.volume < b.settings.cfg.hardLimit then
      sumpCleared b else b) = d := by
    rw [sump, settings, sumpCleared, pending]
    simp only [d, ite_and]
  have kept : d.sump = b.sump ∧ d.settings = b.settings ∧ d.floor.attach = b.floor.attach := by
    simp only [d]
    split
    · exact ⟨setPending_sump _ b, setPending_settings _ b, (setPending_moves (k := .all) _ (.inl trivial) trivial).attach⟩
    · exact ⟨rfl, rfl, rfl⟩
  obtain ⟨sump', settings', attach'⟩ := kept
  have press : ownPress (queueWrite .sump { s with sump := { s.sump with purge := none, volume := v } }) = ownPress s := by
    rw [ownPress, queueWrite_settings]
    rfl
  have reported : purgeReported s = b := by
    simp only [purgeReported, b, a, press, releaseClaim_settings, releaseClaim_sump, queueWrite_settings, queueWrite_sump, v]
  rw [endPurge_eq, reported, cleared, testThreshold_eq]
  refine if_congr ?_ rfl rfl
  simp only [pressIdle, sump', settings', attach', sump, settings, attach, true_and]

end Press

end Sys2Proof.Machine

namespace Sys2Proof.Proofs

open Sys2Proof Sys2Proof.Machine Sys2Proof.Safety

/-- Settles O51: each kind of posting keeps its job's number. -/
theorem postingAddsToOneJobRecord : Obligations.PostingAddsToOneJobRecord := by
  intro number s old i found place plus posted
  have both (add : JobRecord → JobRecord) (keeps : (add old).number = old.number) :
      posted (add old) (old.settle (add old)) (postJob number add s) :=
    ⟨settle_eq old (add old), postJob_blocks found place keeps⟩
  exact ⟨fun p first => ⟨_, both (JobRecord.addPortion p first) rfl⟩,
    fun area cents => ⟨_, both (JobRecord.addMaterial area cents) rfl⟩⟩

/-- Settles O52: by the state of the account, the claim table and what each event finds. -/
theorem purgeCycleRunsAsGiven : Obligations.PurgeCycleRunsAsGiven := by
  intro s cfg press waits
  refine ⟨fun hready => ?_, fun active => ⟨wantPress_of_refused active, fun none room fresh => ?_⟩, fun result other => if_neg other,
    fun wants => ⟨?_, ?_, ?_⟩, fun solids => rfl, testThreshold_eq s, fun other => ?_, fun purging => ?_,
    fun purging timer => ?_, fun waiting timer => ?_⟩
  · have runs := exec_checked_of_ready (c := .purgeNow) (command := 0x17) (table := purgeNowTable)
      (effect := fun u => wantPress { u with sump := { u.sump with retry := none } }) rfl runPurgeNow_eq_checked rfl hready
    refine ⟨runs.1, fun active state some => ?_⟩
    rw [runs.2]
    · rfl
    · obtain idle | waiting := state
      · simp [purgeNowTable, firstRefusal_eq_none_iff, active, idle, some.ne']
      · simp [purgeNowTable, firstRefusal_eq_none_iff, active, waiting, some.ne']
  · have asks := wantPress_of_room active none room
    refine ⟨asks, fun slot => ?_⟩
    rw [asks, makeClaim_of_room (s := { s with sump := { s.sump with state := .wantPress } }) fresh slot]
    rfl
  · exact if_pos wants
  · exact if_pos wants
  · rintro result (rfl | rfl | rfl) <;> exact if_pos wants
  · change Host.Outcome.next (if s.sump.state = .purging then _ else _) = _
    rw [if_neg other]
  · change Host.Outcome.next (if s.sump.state = .purging then launchWrite (endPurge s) else _) = _
    rw [if_pos purging, endPurge_steps]
    rfl
  · change Host.Outcome.next (if s.sump.purge.isSome = true ∧ s.sump.state = .purging then _ else _) = _
    rw [if_pos ⟨timer, purging⟩]
    simp only [purgeTimedOut, releaseClaim_settings, releaseClaim_sump]
    rfl
  · change Host.Outcome.next (if s.sump.retry.isSome = true ∧ s.sump.state = .retryWait then _ else _) = _
    rw [if_pos ⟨timer, waiting⟩]
    simp only [purgeDue, Bool.and_eq_true, decide_eq_true_eq, beq_iff_eq]
    rfl

end Sys2Proof.Proofs

/-! PROOF. The station's commands and the end of the listen-in (R163, R180, R182, R185), and the water share unit (R72,
R73, R111 to R119). -/

namespace Sys2Proof.Machine

open Sys2Proof Sys2Proof.Safety

/-! ### Station commands -/

/-- R180: SET STATION runs the checks of its table. -/
theorem runSetStation_eq_checked (first second number : Nat) (s : State) : runSetStation first second number s =
    checked 0x1B (setStationTable first second number s) (fun s =>
      let s := acceptWith 0x1B (.number number) s
      { s with station := { s.station with setNumber := some number } }) s := by
  simp only [runSetStation, setStationTable, checked_cons, checked_nil, Bool.or_eq_true, bne_iff_ne, decide_eq_true_eq]
  refine if_congr or_assoc.symm rfl ?_
  by_cases attach : s.floor.attach ≠ .inert
  · rw [if_pos (.inl attach), if_pos attach]
  · by_cases straps : s.station.straps ≤ 30
    · rw [if_pos (.inr (.inl straps)), if_neg attach, if_pos straps]
    · simp only [attach, straps, false_or, if_false]

/-- R185: the pending entries an erase leaves. -/
theorem StorePlace.isRecord_not_eq (p : StorePlace) : (!p.isRecord) = match p with
    | .slab _ => false
    | .job _ => false
    | _ => true := by
  cases p <;> rfl

/-- R62, R141: a plan gone STALE leaves the register's places, the number of the table's places and the store. -/
theorem stalePlan_kept (slab : Nat) (cause : StaleCause) (s : State) :
    (stalePlan slab cause s).register.places = s.register.places ∧
    (stalePlan slab cause s).jobs.length = s.jobs.length ∧ (stalePlan slab cause s).store = s.store := by
  have released (p : Plan) (t : State) : (releasePlan p t).register.places = t.register.places ∧
      (releasePlan p t).jobs.length = t.jobs.length ∧ (releasePlan p t).store = t.store := by
    have jobs (js : List Nat) (u : State) : (releaseJobs js u).jobs.length = u.jobs.length := by
      induction js generalizing u with
      | nil => rfl
      | cons j rest ih => exact (ih _).trans (by simp [mapJob])
    refine ⟨?_, jobs _ _, ?_⟩
    · rw [releasePlan, releaseJobs_only_jobs]
      rfl
    · rw [releasePlan, releaseJobs_only_jobs]
      rfl
  unfold stalePlan
  split
  · next p valid =>
    split
    · simpa using released p { s with staged := .stale { p with reservations := 0 } cause }
    · exact ⟨rfl, rfl, rfl⟩
  all_goals exact ⟨rfl, rfl, rfl⟩

/-- R185: the erase, the three blocks it empties as they stood before a plan went STALE. -/
theorem eraseRecords_staleErased (s : State) : eraseRecords (staleErased s) = queueWrite .erase { staleErased s with
    register := { (staleErased s).register with places := s.register.places.map fun _ => none, reservations := 0 }
    jobs := s.jobs.map fun _ => none
    store := { s.store with queue := s.store.queue.filter fun p => !p.isRecord } } := by
  have kept : (staleErased s).register.places = s.register.places ∧ (staleErased s).jobs.length = s.jobs.length ∧
      (staleErased s).store = s.store := by
    unfold staleErased
    cases s.staged.plan? with
    | none => exact ⟨rfl, rfl, rfl⟩
    | some p => exact stalePlan_kept p.slab .gone s
  obtain ⟨places, jobs, store⟩ := kept
  simp only [eraseRecords, places, store, List.map_const', jobs]

/-! ### A recompute -/

section Water
variable {s : State} {o : Order}

/-- R72: nothing but a RUNNING order neither held nor stopped answers a new E. -/
theorem planOnWater_of_other (h : s.active.state ≠ .running ∨ s.active.order.all (fun o => o.held || o.stopped) = true) :
    planOnWater s = s := by
  unfold planOnWater
  split
  · rfl
  · next o order =>
    refine if_neg fun ⟨running, held, stopped⟩ => ?_
    simp [running, order, held, stopped] at h

/-- R72, R73: a RUNNING order neither held nor stopped is held or updated. -/
theorem planOnWater_of_running (running : s.active.state = .running) (order : s.active.order = some o)
    (held : o.held = false) (stopped : o.stopped = false) :
    planOnWater s = if s.water.effective < s.settings.cfg.qmin then holdOrder o s else updateFeed o s := by
  simp only [planOnWater, order]
  exact if_pos ⟨running, held, stopped⟩

/-- R117: the figures unchanged. -/
theorem recomputeWater_of_same (allotment : (waterFigures s).allotment = s.water.allotment)
    (fresh : (waterFigures s).fresh = s.water.fresh) (effective : (waterFigures s).effective = s.water.effective) :
    recomputeWater s = { s with water := waterFigures s } := by
  simp [recomputeWater, allotment, fresh, effective]

/-- R117: A or E changed. -/
theorem recomputeWater_of_changed (changed : (waterFigures s).allotment ≠ s.water.allotment ∨
    (waterFigures s).effective ≠ s.water.effective) :
    recomputeWater s = judgeDwell (planOnWater { s with water := waterFigures s }) := by
  unfold recomputeWater
  simp only
  rw [if_pos changed, if_pos (changed.imp id .inr)]

/-- R118: the dwell judged against Qmin as it stood. -/
theorem judgeDwell_eq {s : State} {qmin : Nat} (same : s.settings.cfg.qmin = qmin) : judgeDwell s =
    { s with water := { s.water with
      dwell := if s.active.pending.waterShort = true ∧ qmin ≤ s.water.effective then some (s.water.dwell.getD 1000)
        else none } } := by
  rw [judgeDwell, same]

/-- R73: an order held. -/
theorem holdOrder_eq (o : Order) (s : State) : holdOrder o s =
    addCause .waterShort s.active.nextSeg o.kind o.start { orderFrame (.holdOrder o.tag o.segment) s with
      active := { s.active with order := some { o with held := true } } } := by
  simp only [holdOrder, orderFrame_active]

/-- R72: an order's feed updated. -/
theorem updateFeed_eq {f : Nat} (limit : feedLimit s.settings.cfg (segmentFeed s o.segment) s.water.effective = some f) :
    updateFeed o s = if f = o.feed then s else
      { orderFrame (.feedUpdate o.tag o.segment f s.water.effective) s with
        active := { s.active with order := some { o with feed := f, water := s.water.effective } } } := by
  simp only [updateFeed, limit, orderFrame_active, orderFrame_water]

/-! ### Own demand -/

/-- R111: the own demand by the state of the slot. -/
theorem ownDemandFor_eq (s : State) : ownDemandFor s = match s.active.state with
    | .running => s.settings.cfg.qnom
    | .ending => s.settings.cfg.qnom
    | .paused => if s.active.pending.waterShort || s.active.pending.sumpFull then s.settings.cfg.qnom else 0
    | _ => 0 := by
  unfold ownDemandFor Pending.hasExternal
  cases s.active.state <;> rfl

/-- R113: whether an entry is a DEMAND that waits. -/
theorem isWaitingDemand_iff (e : TxEntry) : isWaitingDemand e = true ↔ e.sending = false ∧ e.notice.kind = 4 := by
  simp [isWaitingDemand]

/-- R113: a DEMAND takes the place of one that waits. -/
theorem sendDemand_of_waiting (active : s.floor.attach = .active)
    (waits : ∃ e ∈ s.floor.queue, e.sending = false ∧ e.notice.kind = 4) : sendDemand s =
      { s with
        floor := { s.floor with queue := s.floor.queue.map fun e =>
          if e.sending = false ∧ e.notice.kind = 4 then { e with notice := .demand s.water.own, attempts := 0 } else e }
        water := { s.water with refresh := some (refreshTime s.water.own) } } := by
  have any : s.floor.queue.any isWaitingDemand = true := by
    rw [List.any_eq_true]
    simpa only [isWaitingDemand_iff] using waits
  simp only [sendDemand, if_pos active, if_pos any, replaceDemand, isWaitingDemand_iff]

/-- R112: a DEMAND is handed where none waits. -/
theorem sendDemand_of_none_waiting (active : s.floor.attach = .active)
    (none : ∀ e ∈ s.floor.queue, e.sending = true ∨ e.notice.kind ≠ 4) : sendDemand s =
      let t := handNotice (.demand s.water.own) Option.none s
      { t with water := { s.water with refresh := some (refreshTime s.water.own) } } := by
  have any : ¬ s.floor.queue.any isWaitingDemand = true := by
    rw [List.any_eq_true]
    rintro ⟨e, mem, waits⟩
    obtain ⟨idle, kind⟩ := (isWaitingDemand_iff e).mp waits
    obtain sending | other := none e mem
    · rw [idle] at sending
      cases sending
    · exact other kind
  simp only [sendDemand, if_pos active, if_neg any, handNotice_water]

end Water

/-- R113: at most one DEMAND waiting stands as it is. -/
theorem oneDemand_of_one {q : List TxEntry} (one : (q.filter fun e => !e.sending && e.notice.kind == 4).length ≤ 1) :
    oneDemand q = q := by
  change (q.filter isWaitingDemand).length ≤ 1 at one
  unfold oneDemand
  split
  · next older newer rest waiting =>
    rw [waiting] at one
    simp at one
  · rfl

/-- R113: of two DEMANDs waiting the older takes the newer content, and the newer leaves. -/
theorem oneDemand_of_two {before between after : List TxEntry} {older newer : TxEntry}
    (first : isWaitingDemand older = true) (second : isWaitingDemand newer = true) (distinct : older ≠ newer)
    (others : ∀ e ∈ before ++ between ++ after, ¬ isWaitingDemand e = true) :
    oneDemand (before ++ older :: between ++ newer :: after) =
      before ++ { older with notice := newer.notice, attempts := 0 } :: between ++ after := by
  simp only [List.mem_append, or_imp, forall_and] at others
  obtain ⟨⟨early, middle⟩, late⟩ := others
  have waiting : (before ++ older :: between ++ newer :: after).filter isWaitingDemand = [older, newer] := by
    simp only [List.filter_append, List.filter_cons_of_pos first, List.filter_cons_of_pos second,
      List.filter_eq_nil_iff.mpr early, List.filter_eq_nil_iff.mpr middle, List.filter_eq_nil_iff.mpr late]
    rfl
  have absent : newer ∉ before ++ older :: between := by
    simp only [List.mem_append, List.mem_cons, not_or]
    exact ⟨fun mem => early _ mem second, fun same => distinct same.symm, fun mem => middle _ mem second⟩
  have erased : (before ++ older :: between ++ newer :: after).erase newer = before ++ older :: between ++ after := by
    rw [List.erase_append_right _ absent, List.erase_cons_head]
  have same {l : List TxEntry} (h : ∀ e ∈ l, ¬ isWaitingDemand e = true) :
      l.map (fun e => if e = older then { older with notice := newer.notice, attempts := 0 } else e) = l := by
    conv => rhs; rw [← List.map_id l]
    exact List.map_congr_left fun e mem => if_neg fun here => h e mem (by rw [here]; exact first)
  simp only [oneDemand, waiting, erased, List.map_append, List.map_cons, same early, same middle, same late, if_true]

/-- R119: the saw cuts where an order in flight is not held. -/
theorem cutting_iff (s : State) : s.cutting = true ↔ ∃ o, s.active.order = some o ∧ o.held = false := by
  simp [State.cutting, Option.any_eq_true]

end Sys2Proof.Machine

namespace Sys2Proof.Proofs

open Sys2Proof Sys2Proof.Machine Sys2Proof.Safety

/-- Settles O53: each command by its checks. -/
theorem stationCommandsWorkInInert : Obligations.StationCommandsWorkInInert := by
  intro s inert
  refine ⟨fun hready => ?_, fun listening timer => ?_, fun first second number hready => ?_, fun fields hready => ?_,
    fun kr kf hready => ?_, fun hready => ?_⟩
  · have takes : exec .join s = .next (launchWrite (runJoin (popInbound s))) := takeCommand_of_ready hready
    rw [takes, runJoin, refuse_popInbound 0x18 .state hready.2, accept_popInbound 0x18 hready.2]
    refine ⟨fun unfit => ?_, fun free numbered => ?_⟩
    · rw [if_pos (show (popInbound s).floor.attach ≠ .inert ∨ (popInbound s).station.number.isNone = true from
        unfit.imp id fun none => Option.isNone_iff_eq_none.mpr none)]
    · rw [if_neg]
      · rfl
      · rintro (busy | none)
        · exact busy free
        · exact numbered (by simpa using none)
  · change Host.Outcome.next (if s.floor.listenIn.isSome = true ∧ s.floor.attach = .listening then _ else _) = _
    rw [if_pos ⟨timer, listening⟩]
    rfl
  · have takes : exec (.setStation first second number) s =
        .next (launchWrite (runSetStation first second number (popInbound s))) := takeCommand_of_ready hready
    have accepted : acceptWith 0x1B (.number number) (popInbound s) = answered (.accepted 0x1B (.number number)) s :=
      report_popInbound hready.2 (Nat.le_of_ble_eq_true rfl)
    rw [takes, runSetStation_eq_checked]
    refine ⟨fun why refused => ?_, fun one two small free straps unset => ?_⟩
    · rw [checked_refused hready.2 (show firstRefusal (setStationTable first second number (popInbound s)) = _ from refused)]
    · rw [checked_run, accepted]
      · rfl
      · have free : s.floor.attach = .inert := free
        simp [setStationTable, firstRefusal_eq_none_iff, one, two, small, free, straps, unset, popInbound]
  · have takes : exec (.writeConfig fields) s = .next (launchWrite (runWriteConfig fields (popInbound s))) :=
      takeCommand_of_ready hready
    rw [takes, runWriteConfig, refuse_popInbound 0x1C .state hready.2, accept_popInbound 0x1C hready.2]
    exact ⟨fun busy => by rw [if_pos (by exact busy)], fun free => by rw [if_neg (by exact not_not.mpr free)]; rfl⟩
  · have takes : exec (.writeCalibration kr kf) s = .next (launchWrite (runWriteCalibration kr kf (popInbound s))) :=
      takeCommand_of_ready hready
    rw [takes, runWriteCalibration, refuse_popInbound 0x1D .state hready.2, accept_popInbound 0x1D hready.2]
    exact ⟨fun busy => by rw [if_pos (by exact busy)], fun free => by rw [if_neg (by exact not_not.mpr free)]; rfl⟩
  · have takes : exec .storeErase s = .next (launchWrite (runStoreErase (popInbound s))) := takeCommand_of_ready hready
    rw [takes, runStoreErase, refuse_popInbound 0x1E .state hready.2, accept_popInbound 0x1E hready.2]
    refine ⟨fun busy => by rw [if_pos (by exact busy)], fun free => ?_⟩
    rw [if_neg (by exact not_not.mpr free), eraseRecords_staleErased]
    have stale : staleErased (acceptedBy 0x1E s) =
        (s.staged.plan?.elim id fun p => stalePlan p.slab .gone) (acceptedBy 0x1E s) := by
      change s.staged.plan?.elim _ _ = _
      cases s.staged.plan? <;> rfl
    have left : s.store.queue.filter (fun p => !p.isRecord) = s.store.queue.filter _ :=
      List.filter_congr fun p _ => p.isRecord_not_eq
    rw [stale]
    intro a
    exact congrArg (fun q => Host.Outcome.next (launchWrite (queueWrite .erase { a with
      register := { a.register with places := s.register.places.map fun _ => none, reservations := 0 }
      jobs := s.jobs.map fun _ => none
      store := { s.store with queue := q } }))) left

/-- Settles O60: by what a recompute finds changed, the state of the slot and the DEMANDs in the queue. -/
theorem waterShareFollowsThePlan : Obligations.WaterShareFollowsThePlan := by
  intro s cfg w a dwell
  refine ⟨rfl, recomputeWater_of_same, fun changed => ⟨fun other => ?_, fun o running order held stopped => ⟨fun short => ?_,
    fun f limit => ?_⟩⟩, ?_, fun off => if_neg off, fun active => ⟨fun waits => ?_, fun none => ?_⟩,
    ⟨fun q => oneDemand_of_one, fun before between after older newer first second distinct others => ?_⟩, ?_, ?_, ?_⟩
  · rw [recomputeWater_of_changed changed, planOnWater_of_other (s := a) other]
    rfl
  · rw [recomputeWater_of_changed changed, planOnWater_of_running (s := a) running order held stopped, if_pos (by exact short),
      holdOrder_eq, judgeDwell_eq (qmin := cfg.qmin) (by simp [cfg, a])]
  · rw [recomputeWater_of_changed changed, planOnWater_of_running (s := a) running order held stopped,
      if_neg (by exact not_lt.mpr (le_of_feedLimit_eq_some limit)), updateFeed_eq (s := a) (by exact limit),
      judgeDwell_eq (qmin := cfg.qmin) (by split <;> simp [cfg, a])]
  · have demand := ownDemandFor_eq s
    intro d
    change ownDemandFor s = d at demand
    refine ⟨fun same => ?_, fun other => ?_⟩
    · rw [tellWater, demand, if_pos same]
      rfl
    · rw [tellWater, demand, if_neg other, judgeDwell_eq (qmin := cfg.qmin) (by simp [cfg])]
  · rw [sendDemand_of_waiting active waits]
    rfl
  · rw [sendDemand_of_none_waiting active none]
    rfl
  · exact oneDemand_of_two ((isWaitingDemand_iff older).mpr first) ((isWaitingDemand_iff newer).mpr second) distinct
      fun e mem => by rw [isWaitingDemand_iff]; exact others e mem
  · exact cutting_iff s
  · simp [State.freshValve, cutting_iff]
  · simp [State.purgeValve]

end Sys2Proof.Proofs

/-! PROOF. The remaining expiries, the meters' pulses, and the part's own clock (R16, R83, R88, R112, R118, R121 to R123,
R164). -/

namespace Sys2Proof.Machine

open Sys2Proof Sys2Proof.Safety

/-! ### The sweep -/

section Sweep
variable {s : State} {cursor id : Nat}

/-- R16: what the sweep announces. -/
theorem isSweepable_iff (r : SlabRecord) :
    isSweepable s cursor r = true ↔ r.state = .stock ∧ s.isOwn r.id = true ∧ cursor < r.id := by
  simp [isSweepable, and_assoc]

/-- R16: the sweep's target is the least own STOCK id above the cursor. -/
theorem sweepTarget_eq_some (least : ∀ r ∈ slabRecords s, r.state = .stock → s.isOwn r.id = true → cursor < r.id → id ≤ r.id)
    (held : ∃ r ∈ slabRecords s, r.id = id ∧ r.state = .stock ∧ s.isOwn id = true ∧ cursor < id) :
    sweepTarget s cursor = some id := by
  obtain ⟨r, mem, rfl, stock, own, above⟩ := held
  rw [sweepTarget, List.min?_eq_some_iff]
  simp only [List.mem_map, List.mem_filter, isSweepable_iff]
  refine ⟨⟨r, ⟨mem, stock, own, above⟩, rfl⟩, ?_⟩
  rintro _ ⟨x, ⟨here, stock, own, above⟩, rfl⟩
  exact least x here stock own above

/-- R16: the sweep has no target where no own STOCK record stands above the cursor. -/
theorem sweepTarget_eq_none (none : ∀ r ∈ slabRecords s, r.state = .stock → s.isOwn r.id = true → r.id ≤ cursor) :
    sweepTarget s cursor = Option.none := by
  rw [sweepTarget, List.min?_eq_none_iff, List.map_eq_nil_iff, List.filter_eq_nil_iff]
  intro r mem sweeps
  obtain ⟨stock, own, above⟩ := (isSweepable_iff r).mp sweeps
  exact absurd (none r mem stock own) (not_le.mpr above)

end Sweep

/-! ### The clock -/

/-- The expiry `c` is due. -/
def isDue (s : State) (c : Instr) : Prop :=
  (∃ e ∈ s.claims.entries, e.settle = some 0 ∧ c = .settleTimerExpiry e.resource) ∨
  (s.floor.listenIn = some 0 ∧ s.floor.attach = .listening ∧ c = .listenInExpiry) ∨
  (∃ w, s.register.sweep = some w ∧ w.timer = 0 ∧ c = .announceTimerExpiry) ∨
  (s.water.refresh = some 0 ∧ c = .demandRefreshExpiry) ∨ (s.water.dwell = some 0 ∧ c = .resumeDwellExpiry) ∨
  (s.active.overrun = some 0 ∧ c = .overrunExpiry) ∨ (s.active.stopWait = some 0 ∧ c = .stopWaitExpiry) ∨
  (s.sump.purge = some 0 ∧ s.sump.state = .purging ∧ c = .purgeTimerExpiry) ∨
  (s.sump.retry = some 0 ∧ s.sump.state = .retryWait ∧ c = .retryTimerExpiry) ∨
  (∃ k p n, s.peers[k]? = some p ∧ s.station.number ≠ some k ∧ p.heard = some n ∧
    ((p.presence = .present ∧ 2000 ≤ n ∧ c = .peerLapse k) ∨ (p.presence = .lapsed ∧ 60000 ≤ n ∧ c = .peerAbsent k))) ∨
  (∃ w, s.store.inFlight = some w ∧ w.timer = 0 ∧ c = .storeWriteTimeout)

/-- A command due when a condition holds. -/
theorem mem_dueIf {b : Bool} {c d : Instr} : c ∈ dueIf b d ↔ b = true ∧ c = d := by
  cases b <;> simp [dueIf]

/-- R164: a mark is reached by a timer that has counted up to it. -/
theorem heardFor_iff (ms : Nat) (p : Peer) : heardFor ms p = true ↔ ∃ n, p.heard = some n ∧ ms ≤ n := by
  simp [heardFor, Option.any_eq_true]

/-- R164: the marks due of one peer. -/
theorem mem_duePeer {k : Nat} {p : Peer} {c : Instr} : c ∈ duePeer k p ↔ ∃ n, p.heard = some n ∧
    ((p.presence = .present ∧ 2000 ≤ n ∧ c = .peerLapse k) ∨
      (p.presence = .lapsed ∧ 60000 ≤ n ∧ c = .peerAbsent k)) := by
  simp only [duePeer, List.mem_append, mem_dueIf, Bool.and_eq_true, beq_iff_eq, heardFor_iff]
  constructor
  · rintro (⟨⟨here, n, heard, long⟩, rfl⟩ | ⟨⟨here, n, heard, long⟩, rfl⟩)
    · exact ⟨n, heard, .inl ⟨here, long, rfl⟩⟩
    · exact ⟨n, heard, .inr ⟨here, long, rfl⟩⟩
  · rintro ⟨n, heard, ⟨here, long, rfl⟩ | ⟨here, long, rfl⟩⟩
    · exact .inl ⟨⟨here, n, heard, long⟩, rfl⟩
    · exact .inr ⟨⟨here, n, heard, long⟩, rfl⟩

/-- R164: the marks due of the peer table. -/
theorem mem_duePeers {s : State} {c : Instr} : c ∈ duePeers s ↔
    ∃ k p n, s.peers[k]? = some p ∧ s.station.number ≠ some k ∧ p.heard = some n ∧
      ((p.presence = .present ∧ 2000 ≤ n ∧ c = .peerLapse k) ∨
        (p.presence = .lapsed ∧ 60000 ≤ n ∧ c = .peerAbsent k)) := by
  rw [duePeers, List.mem_flatten]
  constructor
  · rintro ⟨l, mem, due⟩
    obtain ⟨k, lt, rfl⟩ := List.mem_mapIdx.mp mem
    split at due
    · cases due
    · next other =>
      obtain ⟨n, heard, h⟩ := mem_duePeer.mp due
      exact ⟨k, _, n, List.getElem?_eq_getElem lt, other, heard, h⟩
  · rintro ⟨k, p, n, here, other, heard, h⟩
    obtain ⟨lt, rfl⟩ := List.getElem?_eq_some_iff.mp here
    refine ⟨_, List.mem_mapIdx.mpr ⟨k, lt, rfl⟩, ?_⟩
    rw [if_neg other]
    exact mem_duePeer.mpr ⟨n, heard, h⟩

/-- The expiries due are those whose timers have run out, or whose marks are reached. -/
theorem mem_dueCommands {s : State} {c : Instr} : c ∈ dueCommands s ↔ isDue s c := by
  simp only [dueCommands, dueSettles, List.mem_append, List.mem_flatMap, mem_dueIf, mem_duePeers, Bool.and_eq_true,
    beq_iff_eq, Option.any_eq_true, isDue, and_assoc, or_assoc, ← exists_and_right]

/-- A free choice among the expiries due takes one of them. -/
theorem chooseDue_mem {s : State} {due : List Instr} (some : due ≠ []) : ∃ c ∈ due, chooseDue s due = .some c := by
  have lt : Config.dueChoice s.freeUses % due.length < due.length := Nat.mod_lt _ (List.length_pos_of_ne_nil some)
  exact ⟨_, List.getElem_mem lt, List.getElem?_eq_getElem lt⟩

section Step
variable {s : State}

/-- With no command waiting a step is the part's own. -/
theorem step_of_idle (idle : s.pending = []) : step s = Machine.idle s := by
  unfold step
  split
  · next waits => cases idle.symm.trans waits
  · rfl

/-- With no command waiting and some expiry due, a step takes one. -/
theorem step_of_due (idle : s.pending = []) (due : ∃ c, isDue s c) :
    ∃ c, isDue s c ∧ step s = exec c { s with freeUses := s.freeUses + 1 } := by
  obtain ⟨c, here⟩ := due
  obtain ⟨d, mem, chosen⟩ := chooseDue_mem (s := s) (List.ne_nil_of_mem (mem_dueCommands.mpr here))
  refine ⟨d, mem_dueCommands.mp mem, ?_⟩
  simp only [step_of_idle idle, Machine.idle, chosen]

/-- With no command waiting and none due, a millisecond passes. -/
theorem step_of_none_due (idle : s.pending = []) (none : ∀ c, ¬ isDue s c) : step s = .next (tick s) := by
  have empty : dueCommands s = [] := List.eq_nil_iff_forall_not_mem.mpr fun c mem => none c (mem_dueCommands.mp mem)
  simp [step_of_idle idle, Machine.idle, empty, chooseDue]

end Step

/-! ### The stop wait -/

section StopWait
variable {s : State} {o : Order}

/-- R88: the state once an order has ended without a report. -/
theorem endUnreported_eq (o : Order) (s : State) :
    let a := report (.trap (.unreportedPortion o.tag) s.active.plan.number (some o.segment)) s
    endUnreported o s = { a with
      host := { a.host with
        outbound := a.host.outbound.filter fun f => f.begun || f.report.orderTag != some o.tag }
      active := { s.active with order := none, overrun := none, stopWait := none }
      water := { s.water with
        idleRecycled := min max32 (s.water.idleRecycled + s.water.segRecycled)
        idleFresh := min max32 (s.water.idleFresh + s.water.segFresh), segRecycled := 0, segFresh := 0 } } := by
  intro a
  have active : a.active = s.active := report_active ..
  have water : a.water = s.water := report_water ..
  simp only [← active, ← water]
  rfl

/-- R88, R90: the stop wait's end with an order in flight. -/
theorem exec_stopWaitExpiry_of_order (timer : s.active.stopWait.isSome = true) (order : s.active.order = some o) :
    exec .stopWaitExpiry s = .next (if s.active.state = .ending then
      launchWrite (abortPlan (s.active.fault.getD (stopRecord s .hostAbort)) (endUnreported o s))
      else endUnreported o s) := by
  change Host.Outcome.next (if s.active.stopWait.isSome then _ else _) = _
  rw [if_pos timer, order]

end StopWait

/-! ### Marks of the heard timer -/

section Marks
variable {s : State} {k : Nat}

/-- R164: an entry other than the station's own set. -/
theorem setPeer_of_other (other : s.station.number ≠ some k) (p : Peer) :
    setPeer k p s = { s with peers := s.peers.set k p } := if_neg other

/-- R164: a mark is not reached by a timer that has not counted up to it. -/
theorem heardFor_eq_false {ms : Nat} {p : Peer} (early : ∀ n, p.heard = some n → n < ms) : ¬ heardFor ms p = true := by
  rw [heardFor_iff]
  rintro ⟨n, heard, long⟩
  exact absurd (early n heard) (not_lt.mpr long)

end Marks

/-! ### Pulses -/

/-- R122: the segment counts accrue while a plan runs, and with an order in flight. -/
theorem accruesToSegment_iff (s : State) : accruesToSegment s = true ↔ s.active.state = .running ∨
    s.active.state = .paused ∨ s.active.state = .ending ∨ (s.active.state = .aborted ∧ s.active.order ≠ none) := by
  unfold accruesToSegment
  cases s.active.state <;> simp [Option.isSome_iff_ne_none]

end Sys2Proof.Machine

namespace Sys2Proof.Proofs

open Sys2Proof Sys2Proof.Machine Sys2Proof.Safety

/-- Settles O59: each expiry where its timer runs, and a pulse by its target. -/
theorem expiriesAndPulsesTakeEffect : Obligations.ExpiriesAndPulsesTakeEffect := by
  intro s
  refine ⟨fun w sweeping => ?_, fun cursor id _ least held => ?_, fun cursor none => ?_,
    fun idle => ⟨step_of_due idle, step_of_none_due idle⟩, fun timer => ?_, fun timer => ?_,
    fun o timer order => ⟨fun r ending fault => ?_, fun aborted => ?_⟩,
    fun k n other heard => ⟨fun present long => ?_, fun lapsed long => ?_⟩, fun k => ⟨fun early => ?_, fun early => ?_⟩,
    fun accrues => ?_, fun not => ?_⟩
  · simp only [exec, execAnnounceTimerExpiry, sweeping]
  · simp only [sweepStep, sweepTarget_eq_some least held]
  · simp only [sweepStep, sweepTarget_eq_none none]
  · change Host.Outcome.next (if s.water.refresh.isSome then _ else _) = _
    rw [if_pos timer]
    rfl
  · change Host.Outcome.next (if s.water.dwell.isSome then _ else _) = _
    rw [if_pos timer]
    rfl
  · rw [exec_stopWaitExpiry_of_order timer order, if_pos ending, fault, endUnreported_eq]
    rfl
  · rw [exec_stopWaitExpiry_of_order timer order, if_neg (by simp [aborted]), endUnreported_eq]
  · change Host.Outcome.next (if _ ∧ _ then _ else _) = _
    rw [if_pos ⟨present, (heardFor_iff 2000 _).mpr ⟨n, heard, long⟩⟩, setPeer_of_other other]
  · change Host.Outcome.next (if _ ∧ _ then _ else _) = _
    rw [if_pos ⟨lapsed, (heardFor_iff 60000 _).mpr ⟨n, heard, long⟩⟩, setPeer_of_other other]
    rfl
  · change Host.Outcome.next (if _ ∧ _ then _ else _) = _
    rw [if_neg fun ⟨present, long⟩ => early.elim (· present) fun early => heardFor_eq_false early long]
  · change Host.Outcome.next (if _ ∧ _ then _ else _) = _
    rw [if_neg fun ⟨lapsed, long⟩ => early.elim (· lapsed) fun early => heardFor_eq_false early long]
  · have target := (accruesToSegment_iff s).mpr accrues
    simp only [exec, execMeterPulse, target, countPulse]
    exact ⟨rfl, rfl⟩
  · have target : accruesToSegment s = false := by
      rw [Bool.eq_false_iff, ne_eq, accruesToSegment_iff]
      exact not
    simp only [exec, execMeterPulse, target, countPulse]
    exact ⟨rfl, rfl⟩

end Sys2Proof.Proofs

/-! PROOF. The window of an own POLL, and the results of a claim (R26 to R32). -/

namespace Sys2Proof.Machine

open Sys2Proof Sys2Proof.Safety

/-! ### Slots -/

section Slots
variable {slots : BitVec 32} {own k : Nat}

/-- R27: the lowest dominant station slot. -/
theorem lowestSlot_eq_some (station : k < 31) (dominant : slots.getLsbD k = true)
    (lowest : ∀ j < k, slots.getLsbD j = false) : lowestSlot slots = some k := by
  rw [lowestSlot, List.find?_range_eq_some]
  exact ⟨dominant, List.mem_range.mpr station, fun j lt => by rw [lowest j lt]; rfl⟩

/-- R27: every station slot recessive. -/
theorem lowestSlot_eq_none (recessive : ∀ j < 31, slots.getLsbD j = false) : lowestSlot slots = none := by
  rw [lowestSlot, List.find?_range_eq_none]
  exact fun j lt => by rw [recessive j lt]; rfl

/-- R32: the lowest dominant slot, where it is lower than this station's. -/
theorem lowerSlot_eq_some (lower : k < own) (station : k < 31) (dominant : slots.getLsbD k = true)
    (lowest : ∀ j < k, slots.getLsbD j = false) : lowerSlot own slots = some k := by
  rw [lowerSlot, lowestSlot_eq_some station dominant lowest, Option.filter_some, if_pos (decide_eq_true lower)]

/-- R32: no lower slot dominant. -/
theorem lowerSlot_eq_none (recessive : ∀ j < min own 31, slots.getLsbD j = false) : lowerSlot own slots = none := by
  rw [lowerSlot, Option.filter_eq_none_iff]
  intro k found
  rw [lowestSlot, List.find?_range_eq_some] at found
  obtain ⟨dominant, station, -⟩ := found
  rw [decide_eq_true_eq, not_lt]
  by_contra lower
  rw [recessive k (by have := List.mem_range.mp station; omega)] at dominant
  cases dominant

end Slots

/-! ### Which window is handed over -/

section Window
variable {s : State} {w : OwnWindow} {e : TxEntry} {before after : List TxEntry}

/-- R161: the one entry being sent. -/
theorem sendingEntry_of_one (queue : s.floor.queue = before ++ e :: after) (sending : e.sending = true)
    (others : ∀ x ∈ before ++ after, x.sending = false) : sendingEntry s = some e := by
  have none : before.find? (·.sending) = Option.none :=
    List.find?_eq_none.mpr fun x mem => by simp [others x (List.mem_append_left _ mem)]
  simp [sendingEntry, queue, List.find?_append, none, sending]

/-- R161: nothing being sent. -/
theorem sendingEntry_of_none (none : ∀ x ∈ s.floor.queue, x.sending = false) : sendingEntry s = Option.none :=
  List.find?_eq_none.mpr fun x mem => by simp [none x mem]

/-- R157: the window under way is handed over. -/
theorem exec_ownPollWindow_of_window (window : s.floor.window = some w) (slots : BitVec 32) :
    exec (.ownPollWindow slots) s = .next (readWindow w.handle (seenSlots s w slots)
      { s with floor := { s.floor with window := none } }) := by
  simp only [exec, execOwnPollWindow, takeWindow, window]

/-- R157: the window of the POLL being sent is handed over. -/
theorem exec_ownPollWindow_of_sending (none : s.floor.window = none) (sending : sendingEntry s = some e) {r h : Nat}
    (poll : e.notice = .poll r) (owner : e.owner = some h) (slots : BitVec 32) :
    exec (.ownPollWindow slots) s = .next (readWindow h (seenSlots s ⟨h, drivesSlot s r⟩ slots) (endSending e s)) := by
  simp only [exec, execOwnPollWindow, takeWindow, none, sending, poll, owner]

/-- R157: a POLL sent begins its window. -/
theorem exec_noticeSent_of_poll (sending : sendingEntry s = some e) {r h : Nat} (poll : e.notice = .poll r)
    (owner : e.owner = some h) : exec .noticeSent s = .next { endSending e s with
      floor := { (endSending e s).floor with window := some ⟨h, drivesSlot s r⟩ } } := by
  simp only [exec, execNoticeSent, sending, tellSent, poll, owner]
  rfl

end Window

/-! ### What a window and a result lead to -/

section Read
variable {s : State} {e : ClaimEntry} {handle : Nat} {slots : BitVec 32}

/-- R29: the window of an entry that has gone. -/
theorem readWindow_of_gone (none : claimOf s handle = none) : readWindow handle slots s = s := by
  simp only [readWindow, none]

/-- R27: the window of an entry in POLLING. -/
theorem readWindow_of_polling (found : claimOf s handle = some e) (polling : e.stage = .polling) :
    readWindow handle slots s = readFirstWindow e slots s := by
  simp only [readWindow, found, polling]

/-- R32: the window of an entry in TENTATIVE. -/
theorem readWindow_of_tentative (found : claimOf s handle = some e) (tentative : e.stage = .tentative) :
    readWindow handle slots s = readConfirmWindow e slots s := by
  simp only [readWindow, found, tentative]

/-- R26: an entry ended. -/
theorem endClaim_of_found (found : claimOf s handle = some e) (result : ClaimResult) (station : Option Nat) :
    endClaim handle result station s = reportResult e result station
      { s with claims := { s.claims with entries := s.claims.entries.filter (·.handle != handle) } } := by
  simp only [endClaim, found]
  rfl

/-- A report leaves the station's number. -/
theorem report_own (r : Report) (s : State) : (report r s).own = s.own := by
  rw [State.own, report_station]
  rfl

/-- R28: a poll spoiled with polls left. -/
theorem pollSpoiled_of_polls (found : claimOf s handle = some e) (live : e.stage ≠ .held) (few : e.polls < 4) :
    pollSpoiled handle s = handPoll 4 handle s := by
  simp only [pollSpoiled, found, if_neg live, if_pos few]

/-- R28: a poll spoiled with all four spent. -/
theorem pollSpoiled_of_spent (found : claimOf s handle = some e) (live : e.stage ≠ .held) (spent : 4 ≤ e.polls) :
    pollSpoiled handle s = claimNoisy handle s := by
  simp only [pollSpoiled, found, if_neg live, if_neg (not_lt.mpr spent)]

end Read

end Sys2Proof.Machine

namespace Sys2Proof.Proofs

open Sys2Proof Sys2Proof.Machine Sys2Proof.Safety

/-- Settles O58: by the window handed over, the stage of its entry and the slots it shows. -/
theorem ownWindowDecidesTheClaim : Obligations.OwnWindowDecidesTheClaim := by
  refine ⟨fun slots s closed => ⟨fun none => ?_, fun e r h before after queue sending others poll owner => ?_⟩,
    fun slots w s window => ?_⟩
  · simp only [exec, execOwnPollWindow, takeWindow, closed, sendingEntry_of_none none]
  · have entry := sendingEntry_of_one queue sending others
    refine ⟨_, exec_noticeSent_of_poll entry poll owner, rfl, ?_⟩
    rw [exec_ownPollWindow_of_sending closed entry poll owner, exec_ownPollWindow_of_window rfl]
    have same : (endSending e s).floor.window = none := closed
    have own : ∀ w, seenSlots { endSending e s with floor := { (endSending e s).floor with window := some w } } w slots =
        seenSlots s w slots := fun _ => rfl
    rw [own, ← same]
  · intro seen t
    rw [exec_ownPollWindow_of_window window]
    have shown : seenSlots s w slots = seen := rfl
    rw [shown]
    clear_value seen
    refine ⟨fun none => by rw [readWindow_of_gone (s := t) none], fun e found polling => ?_, fun e found tentative => ?_,
      fun e u found => ⟨fun live spent => ?_, fun live few => ?_, fun live few room => ?_, fun result station => ?_⟩,
      fun e result station u => ⟨fun job slab => ⟨?_, ?_, ?_⟩, fun press => ?_⟩, fun h k u => rfl, fun e u found timer => ?_⟩
    · have handle : e.handle = w.handle := by simpa using List.find?_some found
      rw [readWindow_of_polling (s := t) found polling, readFirstWindow]
      refine ⟨fun spoilt => by rw [if_pos spoilt], fun k clean station dominant lowest => ?_, fun clear => ?_⟩
      · rw [if_neg (by rw [clean]; exact Bool.false_ne_true), lowestSlot_eq_some station dominant lowest]
      · have silent : lowestSlot seen = none := lowestSlot_eq_none (by simp [clear])
        rw [if_neg (by simp [clear])]
        cases lowest : lowestSlot seen with
        | some k => exact nomatch silent.symm.trans lowest
        | none => rfl
    · rw [readWindow_of_tentative (s := t) found tentative, readConfirmWindow]
      refine ⟨fun k lower station dominant lowest => ?_, fun clear spoilt => ?_, fun clear clean => ?_⟩
      · rw [lowerSlot_eq_some (own := t.own) lower station dominant lowest]
      · rw [lowerSlot_eq_none (own := t.own) clear]
        exact congrArg _ (if_pos spoilt)
      · rw [lowerSlot_eq_none (own := t.own) clear]
        exact congrArg _ (if_neg (by rw [clean]; exact Bool.false_ne_true))
    · rw [pollSpoiled_of_spent found live spent, claimNoisy_eq found, endClaim_of_found found]
    · exact pollSpoiled_of_polls found live few
    · rw [pollSpoiled_of_polls found live few, handPoll_of_room found room]
    · exact endClaim_of_found found result station
    · rintro rfl
      simp only [reportResult, slab, holderOnResult, report_own]
      rfl
    · rintro (rfl | rfl) <;> simp only [reportResult, slab, holderOnResult] <;> rfl
    · rintro (rfl | rfl) <;> simp only [reportResult, slab, holderOnResult]
    · simp only [reportResult, press]
    · change Host.Outcome.next (match claimOn u e.resource with
        | none => u
        | some e => _) = _
      rw [found]
      exact congrArg _ (if_pos timer)

end Sys2Proof.Proofs

/-! PROOF. What becomes of a notice this station sends, and the damaged notices it reads (R154 to R161). -/

namespace Sys2Proof.Machine

open Sys2Proof Sys2Proof.Safety

/-! ### The bit at which a sender loses the line -/

/-- R154, R158: of two precedence fields the lower is told from the higher at the first bit where they differ. -/
theorem first_difference {won own : Nat} (lower : won < own) (fits : own < 512) : ∃ j < 9,
    own.testBit (8 - j) = true ∧ won.testBit (8 - j) = false ∧ ∀ i < j, own.testBit (8 - i) = won.testBit (8 - i) := by
  have beyond {n : Nat} (small : n < 512) {b : Nat} (high : 9 ≤ b) : n.testBit b = false :=
    Nat.testBit_lt_two_pow (small.trans_le (Nat.pow_le_pow_right (by decide : 0 < 2) high))
  have differ : ∃ i, i < 9 ∧ own.testBit (8 - i) ≠ won.testBit (8 - i) := by
    by_contra same
    simp only [not_exists, not_and, not_not] at same
    refine lower.ne' (Nat.eq_of_testBit_eq fun b => ?_)
    obtain high | low := le_or_gt 9 b
    · rw [beyond fits high, beyond (lower.trans fits) high]
    · have := same (8 - b) (by omega)
      rwa [Nat.sub_sub_self (by omega)] at this
  obtain ⟨lt, ne⟩ := Nat.find_spec differ
  have agree (i : Nat) (before : i < Nat.find differ) : own.testBit (8 - i) = won.testBit (8 - i) := by
    have := Nat.find_min differ before
    simp only [not_and, not_not] at this
    exact this (by omega)
  refine ⟨Nat.find differ, lt, ?_⟩
  have above (b : Nat) (high : 8 - Nat.find differ < b) : own.testBit b = won.testBit b := by
    obtain far | near := le_or_gt 9 b
    · rw [beyond fits far, beyond (lower.trans fits) far]
    · have := agree (8 - b) (by omega)
      rwa [Nat.sub_sub_self (by omega)] at this
  cases mine : own.testBit (8 - Nat.find differ) with
  | true =>
    refine ⟨rfl, ?_, agree⟩
    rw [mine] at ne
    simpa using ne.symm
  | false =>
    rw [mine] at ne
    have theirs : won.testBit (8 - Nat.find differ) = true := by simpa using ne.symm
    exact absurd (Nat.lt_of_testBit _ mine theirs above) lower.not_gt

/-- R158: where a sender is first recessive while the winner is dominant. -/
theorem find_lostBit {won own j : Nat} (lt : j < 9) (mine : own.testBit (8 - j) = true)
    (theirs : won.testBit (8 - j) = false) (agree : ∀ i < j, own.testBit (8 - i) = won.testBit (8 - i)) :
    (List.range 9).find? (fun i => own.testBit (8 - i) && !won.testBit (8 - i)) = some j := by
  rw [List.find?_range_eq_some]
  refine ⟨by rw [mine, theirs]; rfl, List.mem_range.mpr lt, fun i before => ?_⟩
  rw [agree i before]
  cases won.testBit (8 - i) <;> rfl

section Loss
variable {s : State}

/-- R154, R158: a sender stopped at the bit it lost. -/
theorem stopDriving_lostTo (won : Nat) (s : State) : stopDriving (lostTo won s) s =
    { s with floor := { s.floor with lineOut := lineAfterLoss won s } } := by
  unfold stopDriving lineAfterLoss lostTo sendingEntry
  cases s.floor.queue.find? (·.sending) with
  | none => rfl
  | some e =>
    have bits : lostBit (precedenceOf e.notice.kind s.own) won = (List.range 9).find? fun i =>
        (e.notice.kind * 32 + s.own).testBit (8 - i) && !won.testBit (8 - i) := by
      simp only [lostBit, recessiveBits, precedenceOf, List.find?_filter, Bool.decide_and, Bool.decide_eq_true]
    simp only [Option.bind_some, bits]
    cases (List.range 9).find? fun i => (e.notice.kind * 32 + s.own).testBit (8 - i) && !won.testBit (8 - i) <;> rfl

/-- R158: the line lost, what was being sent back in its place. -/
theorem loseLine_lostTo (won : Nat) (s : State) : loseLine (lostTo won s) s = { s with floor := { s.floor with
    lineOut := lineAfterLoss won s, queue := oneDemand (s.floor.queue.map fun e => { e with sending := false }) } } := by
  rw [loseLine, stopDriving_lostTo]
  rfl

/-- R158: contention judged by precedence. -/
theorem loseContention_eq (kind k : Nat) (s : State) :
    let lost := s.floor.queue.any fun e => e.sending && decide (kind * 32 + k < e.notice.kind * 32 + s.own)
    loseContention kind k s = { s with floor := { s.floor with
      lineOut := if lost then lineAfterLoss (kind * 32 + k) s else s.floor.lineOut
      queue := if lost then oneDemand (s.floor.queue.map fun e => { e with sending := false }) else s.floor.queue } } := by
  intro lost
  have same : loseContention kind k s = if lost = true then loseLine (lostTo (kind * 32 + k) s) s else s := rfl
  rw [same]
  cases lost with
  | true => exact loseLine_lostTo (kind * 32 + k) s
  | false => rfl

/-- R158: a sender that lost the line at an unknown bit stopped at one of its recessive ones. -/
theorem lostToUnknown_mem {e : TxEntry} (sending : sendingEntry s = some e)
    (some : ∃ j < 9, (e.notice.kind * 32 + s.own).testBit (8 - j) = true) : ∃ j < 9,
      (e.notice.kind * 32 + s.own).testBit (8 - j) = true ∧ lostToUnknown s = .some j := by
  obtain ⟨i, lt, recessive⟩ := some
  have mem : i ∈ recessiveBits (precedenceOf e.notice.kind s.own) := List.mem_filter.mpr ⟨List.mem_range.mpr lt, recessive⟩
  have inside := Nat.mod_lt (Config.lostAtBit s.freeUses) (List.length_pos_of_mem mem)
  obtain ⟨low, high⟩ := List.mem_filter.mp (List.getElem_mem inside)
  refine ⟨_, List.mem_range.mp low, high, ?_⟩
  rw [lostToUnknown, sending]
  exact List.getElem?_eq_getElem inside

/-- R24, R157: the window of a POLL taken with an error, judged on the attach state and the table as they stood. -/
theorem spoilPoll_eq {kind resource : Nat} {t u : State} (attach : t.floor.attach = u.floor.attach)
    (claims : t.claims = u.claims) (quiet : t.floor.drive = none) :
    spoilPoll kind resource t = { t with floor := { t.floor with
      drive := if kind = 1 ∧ u.floor.attach = .active then some ⟨resource, drivesSlot u resource, true⟩ else none } } := by
  have slot : drivesSlot t resource = drivesSlot u resource := by
    simp only [drivesSlot, claimOn, claims]
  rw [spoilPoll, attach, slot]
  split
  · rfl
  · rw [← quiet]

end Loss

/-! ### The entry being sent -/

section Sending
variable {s : State} {e : TxEntry} {before after : List TxEntry}

/-- R161: the entry being sent leaves the queue. -/
theorem dequeueSending_of_one (queue : s.floor.queue = before ++ e :: after) (sending : e.sending = true)
    (others : ∀ x ∈ before ++ after, x.sending = false) :
    dequeueSending s = { s with floor := { s.floor with queue := before ++ after } } := by
  have kept : s.floor.queue.filter (!·.sending) = before ++ after := by
    rw [queue, List.filter_append, List.filter_cons_of_neg (by simp [sending]), ← List.filter_append, List.filter_eq_self]
    exact fun x mem => by simp [others x mem]
  rw [dequeueSending, kept]

/-- R159: the entry being sent goes back in its place. -/
theorem requeueSending_of_one (queue : s.floor.queue = before ++ e :: after) (sending : e.sending = true)
    (others : ∀ x ∈ before ++ after, x.sending = false) : requeueSending s = { s with floor := { s.floor with
      queue := oneDemand (before ++ { e with sending := false, attempts := e.attempts + 1 } :: after) } } := by
  have same {l : List TxEntry} (h : ∀ x ∈ l, x.sending = false) :
      l.map (fun x => if x.sending then { x with sending := false, attempts := x.attempts + 1 } else x) = l := by
    conv => rhs; rw [← List.map_id l]
    exact List.map_congr_left fun x mem => if_neg (by simp [h x mem])
  simp only [requeueSending, queue, List.map_append, List.map_cons, sending, if_true,
    same fun x mem => others x (List.mem_append_left _ mem), same fun x mem => others x (List.mem_append_right _ mem)]

/-- R159: an attempt abandoned stops at some bit of the fields checked. -/
theorem stopAtMismatch_bit (n : Notice) (s : State) : ∃ bit < 7 + 8 * n.body.length + 16, stopAtMismatch n s =
    { s with
      floor := { s.floor with lineOut := s.floor.lineOut.take (1 + 9 + (bit + 1)) }
      freeUses := s.freeUses + 1 } :=
  ⟨_, Nat.mod_lt _ (by omega), rfl⟩

/-- R154: what follows a notice's check on the line. -/
theorem tailBits_eq (n : Notice) (s : State) : n.tailBits s.own (ownSlotOf n s) = (match n with
    | .poll r => (List.range 32).map fun k => !(drivesSlot s r && k == s.own)
    | _ => []) ++ List.replicate 8 true := by
  cases n <;> rfl

/-- R159: the first attempts of an entry. -/
theorem failAttempt_of_few (few : e.attempts + 1 < 3) : failAttempt e s = requeueSending (fallOut s) := if_pos few

/-- R159: the third attempt. -/
theorem failAttempt_of_third (third : 2 ≤ e.attempts) : failAttempt e s = tellDropped e
    (trap (.lineFault .retriesExhausted e.notice.kind) 0 none (countRetryDrop (dequeueSending (fallOut s)))) :=
  if_neg (by omega)

/-- R159: a notice no entry of the claim table owns is told no one. -/
theorem tellSent_of_no_owner (owner : e.owner = none) (s : State) : tellSent e s = s := by
  unfold tellSent
  split
  · next own => cases owner.symm.trans own
  · next own => cases owner.symm.trans own
  · rfl

/-- R161: an attempt begun at the head. -/
theorem exec_transmitAttempt_of_head {rest : List TxEntry} (may : mayTransmit s = true) (queue : s.floor.queue = e :: rest) :
    exec .transmitAttempt s = .next { s with floor := { s.floor with
      queue := { e with sending := true } :: rest, lineOut := e.notice.lineBits s.own, drive := none } } := by
  simp only [exec, execTransmitAttempt, if_pos may, queue, beginSending]

/-- R159: an attempt abandoned. -/
theorem exec_attemptAbandoned_of_sending (sending : sendingEntry s = some e) :
    exec .attemptAbandoned s = .next (failAttempt e (stopAtMismatch e.notice s)) := by
  simp only [exec, execAttemptAbandoned, sending]

/-- R159: a notice sent. -/
theorem exec_noticeSent_of_sending (sending : sendingEntry s = some e) :
    exec .noticeSent s = .next (tellSent e (endSending e s)) := by
  simp only [exec, execNoticeSent, sending]

end Sending

end Sys2Proof.Machine

namespace Sys2Proof.Proofs

open Sys2Proof Sys2Proof.Machine Sys2Proof.Safety

/-- Settles O57: by the entry being sent, its attempts and its owner. -/
theorem attemptsEndSentOrDropped : Obligations.AttemptsEndSentOrDropped := by
  refine ⟨fun e rest s active step closed queue none => ?_, fun e won s sending => ?_,
    fun e before after s queue sending others => ?_, fun e h s owner => ⟨fun r poll => ?_, fun r job claim => ?_⟩⟩
  · refine exec_transmitAttempt_of_head ?_ queue
    simp [mayTransmit, active, step, closed, sendingEntry_of_none none]
  · intro own lower fits
    obtain ⟨j, lt, mine, theirs, agree⟩ := first_difference lower fits
    refine ⟨j, lt, mine, theirs, agree, ?_⟩
    simp only [lineAfterLoss, sending]
    rw [find_lostBit lt mine theirs agree]
  · intro left driven tail sent checked
    have entry := sendingEntry_of_one queue sending others
    have dequeued := dequeueSending_of_one queue sending others
    have ended : endSending e s = sent := by
      rw [endSending, dequeued, sendTail]
      exact congrArg (fun bits => ({ left with floor := { left.floor with lineOut := s.floor.lineOut ++ bits } } : State))
        (tailBits_eq e.notice s)
    refine ⟨fun few => ?_, fun third => ?_, fun r h poll owner => ?_, fun r job h claim owner => ?_, fun owner => ?_⟩
    · obtain ⟨bit, lt, stopped⟩ := stopAtMismatch_bit e.notice s
      refine ⟨bit, lt, ?_⟩
      rw [exec_attemptAbandoned_of_sending entry, failAttempt_of_few few, stopped,
        requeueSending_of_one (s := fallOut _) (by exact queue) sending others]
      rfl
    · obtain ⟨bit, lt, stopped⟩ := stopAtMismatch_bit e.notice s
      refine ⟨bit, lt, ?_⟩
      rw [exec_attemptAbandoned_of_sending entry, failAttempt_of_third third, stopped,
        dequeueSending_of_one (s := fallOut _) (by exact queue) sending others]
      rfl
    · rw [exec_noticeSent_of_poll entry poll owner, ended]
      rfl
    · rw [exec_noticeSent_of_sending entry, ended]
      simp only [tellSent, claim, owner]
      rfl
    · rw [exec_noticeSent_of_sending entry, ended]
      exact congrArg _ (tellSent_of_no_owner owner sent)
  · simp only [tellDropped, poll, owner]
  · simp only [tellDropped, ownerDropped, claim, owner]
    rfl

/-- Settles O56: by whether the receiver is in step, and what was being sent. -/
theorem damagedNoticesAreCounted : Obligations.DamagedNoticesAreCounted := by
  intro kind k resource s inert lost waiting drive bump line
  have on : receiverOn s = true := by simpa [receiverOn] using inert
  have contested := loseContention_eq kind k s
  have checked (step : s.floor.inStep = true) : exec (.checkError kind k resource) s =
      .next (spoilPoll kind resource (countCheckError (setDrive none (loseContention kind k s)))) := by
    simp only [exec, execCheckError, on, step, if_true]
  have formed : exec (.formatError kind k resource) s = .next (if s.floor.inStep then
      spoilPoll kind resource (countFormatError (setDrive none (loseContention kind k s)))
      else countFormatError (setDrive none (loseContention kind k s))) := by
    simp only [exec, execFormatError, on, if_true]
  have stuck : exec .stuckLine s = .next (report (.trap (.lineFault .stuckLine 0) 0 none)
      (setDrive none (loseStep (countLineFault (loseLine (lostTo 0 s) s))))) := by
    simp only [exec, execStuckLine, on, if_true]
    rfl
  rw [loseLine_lostTo] at stuck
  rw [contested] at checked formed
  refine ⟨fun step => ⟨?_, ?_, ?_, ?_⟩, fun out => ⟨?_, ?_, ?_, ?_⟩, ?_⟩
  · rw [checked step, spoilPoll_eq (u := s) (by rfl) (by rfl) (by rfl)]
    rfl
  · rw [formed, if_pos step, spoilPoll_eq (u := s) (by rfl) (by rfl) (by rfl)]
    rfl
  · refine ⟨(stopDriving (lostToUnknown s) s).floor.lineOut, ?_, fun none => ?_, fun e sending => ?_⟩
    · simp only [exec, execLossOfStep, on, step, if_true]
      rw [loseStep, if_pos (by exact step)]
      rfl
    · have idle : sendingEntry s = .none := none
      simp only [stopDriving, lostToUnknown, idle, Option.bind_none]
    · intro own some
      obtain ⟨j, lt, recessive, bit⟩ := lostToUnknown_mem (e := e) sending some
      refine ⟨j, lt, recessive, ?_⟩
      simp only [stopDriving, bit]
  · rw [stuck, loseStep, if_pos (by exact step)]
    rfl
  · rw [stuck, loseStep, if_neg (by exact out ▸ Bool.false_ne_true)]
    rfl
  · have silent : exec (.checkError kind k resource) s = .next (setDrive none s) := by
      simp only [exec, execCheckError, on, out, if_true, Bool.false_eq_true, if_false]
    exact silent
  · rw [formed, if_neg (by exact out ▸ Bool.false_ne_true)]
    rfl
  · have silent : exec .lossOfStep s = .next (setDrive none s) := by
      simp only [exec, execLossOfStep, on, out, if_true, Bool.false_eq_true, if_false]
    exact silent
  · simp only [exec, execReceiverResync, on, if_true]
    rfl

end Sys2Proof.Proofs

/-! PROOF. Valid notices heard: contention, the peer table, muting, and the owners of POLL, CLAIM, RELEASE and DEMAND (R7,
R23, R33, R34, R41, R90, R112, R114, R136, R155 to R166). -/

namespace Sys2Proof.Machine

open Sys2Proof Sys2Proof.Safety

/-! ### Who hears -/

section Hear
variable {kind k : Nat} {demand : Option Nat} {owner : State → State} {s : State}

/-- R154, R155: each of the seven notices is heard with its kind's precedence. -/
theorem exec_heard {c : Instr} (sent : sender c = some k) (s : State) : ∃ kind demand owner,
    heardPrecedence c = kind * 32 + k ∧ exec c s = .next (hearNotice kind k demand owner s) := by
  cases c
  case pollReceived => cases sent; exact ⟨1, none, _, rfl, rfl⟩
  case claimReceived => cases sent; exact ⟨2, none, _, rfl, rfl⟩
  case releaseReceived => cases sent; exact ⟨3, none, _, rfl, rfl⟩
  case demandReceived => cases sent; exact ⟨4, _, _, rfl, rfl⟩
  case retireReceived => cases sent; exact ⟨5, none, _, rfl, rfl⟩
  case slabReceived => cases sent; exact ⟨6, none, _, rfl, rfl⟩
  case helloReceived => cases sent; exact ⟨7, none, _, rfl, rfl⟩
  all_goals cases sent

/-- R163: with the receiver off nothing is heard. -/
theorem hearNotice_of_inert (inert : s.floor.attach = .inert) : hearNotice kind k demand owner s = s :=
  if_pos (.inl (by simp [receiverOn, inert]))

/-- R166: a notice bearing the station's own number mutes it in LISTENING and ACTIVE. -/
theorem hearNotice_of_duplicate (small : k ≤ 30) (own : s.station.number = some k)
    (armed : s.floor.attach = .listening ∨ s.floor.attach = .active) :
    hearNotice kind k demand owner s = launchWrite (muteStation (takeNotice kind k s)) := by
  have detects : detectorArmed s = true := by obtain h | h := armed <;> simp [detectorArmed, h]
  have hears : ¬ (receiverOn s = false ∨ 30 < k) := by
    obtain h | h := armed <;> simp [receiverOn, h, small]
  rw [hearNotice, if_neg hears, if_pos own, if_pos detects]

/-- R166: once MUTED it goes to its owner alone. -/
theorem hearNotice_of_own_muted (small : k ≤ 30) (own : s.station.number = some k) (muted : s.floor.attach = .muted) :
    hearNotice kind k demand owner s = launchWrite (owner (takeNotice kind k s)) := by
  rw [hearNotice, if_neg (by simp [receiverOn, muted, small]), if_pos own, if_neg (by simp [detectorArmed, muted])]

/-- R164: a peer's goes to the peer table, then to its owner. -/
theorem hearNotice_of_peer (small : k ≤ 30) (other : s.station.number ≠ some k) (on : s.floor.attach ≠ .inert) :
    hearNotice kind k demand owner s = launchWrite (owner (peerHeard k demand (takeNotice kind k s))) := by
  rw [hearNotice, if_neg (by simp [receiverOn, on, small]), if_neg other]

/-- R156, R158: a valid notice taken. -/
theorem takeNotice_eq (kind k : Nat) (s : State) :
    let lost := s.floor.queue.any fun e => e.sending && decide (kind * 32 + k < e.notice.kind * 32 + s.own)
    takeNotice kind k s = { s with floor := { s.floor with
      inStep := true, drive := none
      lineOut := if lost then lineAfterLoss (kind * 32 + k) s else s.floor.lineOut
      queue := if lost then oneDemand (s.floor.queue.map fun e => { e with sending := false }) else s.floor.queue } } := by
  intro lost
  rw [takeNotice, loseContention_eq]
  rfl

/-- R158: with nothing in the queue nothing is lost. -/
theorem takeNotice_of_empty (empty : s.floor.queue = []) : takeNotice kind k s =
    { s with floor := { s.floor with inStep := true, drive := none } } := by
  rw [takeNotice_eq]
  simp only [empty, List.any_nil, Bool.false_eq_true, if_false]

/-- R164: the peer table takes a notice. -/
theorem peerHeard_eq (other : s.station.number ≠ some k) (d : Option Nat) :
    let p := peerOf s k
    let q : Peer := { p with presence := .present, heard := some 0, demand := d.getD p.demand }
    let a : State := { s with peers := s.peers.set k q }
    let b := if p.presence = .present ∧ d = none then a else recomputeWater a
    peerHeard k d s = if p.presence = .absent then sweepStep 0 b else b := by
  intro p q a b
  have set : setPeer k (p.afterNotice d) s = a := setPeer_of_other other _
  have shared : (if p.presence ≠ .present ∨ d.isSome then recomputeWater a else a) = b := by
    by_cases quiet : p.presence = .present ∧ d = none
    · simp [b, quiet]
    · rw [if_pos (by cases d <;> simp_all)]
      exact (if_neg quiet).symm
  unfold peerHeard
  simp only [startSweep, ← shared, ← set]
  rfl

/-- R164: the peer table's part leaves the attach state. -/
theorem peerHeard_attach (k : Nat) (d : Option Nat) (s : State) : (peerHeard k d s).floor.attach = s.floor.attach :=
  (peerHeard_moves (k := .all) k d (.inl trivial) (.inl trivial)).attach

end Hear

/-! ### Muting -/

section Mute
variable {s : State}

/-- R41: what the host and the register are told of an entry as the station is muted. -/
def toldMuted (own : Nat) (u : State) (e : ClaimEntry) : State :=
  match e.purpose with
  | .slab job => if e.stage = .held then clearHolder e.resource own u
      else report (.claimResult e.resource job .muted none e.polls) u
  | .press => u

/-- The claim table with other entries. -/
def withEntries (entries : List ClaimEntry) (s : State) : State := { s with claims := { s.claims with entries := entries } }

/-- A report does not read the claim table. -/
theorem report_withEntries (r : Report) (l : List ClaimEntry) (s : State) :
    report r (withEntries l s) = withEntries l (report r s) := by
  have admitted : admits r (withEntries l s) = admits r s := rfl
  simp only [report, admitted]
  split <;> rfl

theorem toldMuted_withEntries (own : Nat) (l : List ClaimEntry) (u : State) (e : ClaimEntry) :
    toldMuted own (withEntries l u) e = withEntries l (toldMuted own u e) := by
  unfold toldMuted
  split
  · split
    · rfl
    · exact report_withEntries ..
  · rfl

/-- What is told changes neither the claim table nor the blocks the rest of muting works on. -/
theorem toldMuted_kept (own : Nat) (u : State) (e : ClaimEntry) : (toldMuted own u e).claims = u.claims ∧
    (toldMuted own u e).station = u.station ∧ (toldMuted own u e).active = u.active ∧
    (toldMuted own u e).staged = u.staged ∧ (toldMuted own u e).peers = u.peers ∧ (toldMuted own u e).sump = u.sump := by
  unfold toldMuted
  split
  · split <;> simp
  · simp

theorem toldMuted_fold_withEntries (own : Nat) (l entries : List ClaimEntry) (u : State) :
    entries.foldl (toldMuted own) (withEntries l u) = withEntries l (entries.foldl (toldMuted own) u) := by
  induction entries generalizing u with
  | nil => rfl
  | cons e rest ih => rw [List.foldl_cons, toldMuted_withEntries, ih, List.foldl_cons]

theorem toldMuted_fold_kept (own : Nat) (entries : List ClaimEntry) (u : State) :
    let t := entries.foldl (toldMuted own) u
    t.claims = u.claims ∧ t.station = u.station ∧ t.active = u.active ∧ t.staged = u.staged ∧ t.peers = u.peers ∧
      t.sump = u.sump := by
  induction entries generalizing u with
  | nil => exact ⟨rfl, rfl, rfl, rfl, rfl, rfl⟩
  | cons e rest ih =>
    obtain ⟨claims, station, active, staged, peers, sump⟩ := ih (toldMuted own u e)
    obtain ⟨claims', station', active', staged', peers', sump'⟩ := toldMuted_kept own u e
    exact ⟨claims.trans claims', station.trans station', active.trans active', staged.trans staged', peers.trans peers',
      sump.trans sump'⟩

/-- R41: one entry leaves the table and is told of. -/
theorem muteClaim_eq (e : ClaimEntry) (s : State) : muteClaim e s =
    withEntries (s.claims.entries.filter (·.handle != e.handle)) (toldMuted s.own s e) := by
  rw [← toldMuted_withEntries]
  unfold muteClaim toldMuted
  rfl

/-- R41: entries leave the table one by one, each told of. -/
theorem muteEntries_eq (entries : List ClaimEntry) (s : State) : entries.foldl (fun s e => muteClaim e s) s =
    withEntries (s.claims.entries.filter fun x => entries.all fun e => x.handle != e.handle)
      (entries.foldl (toldMuted s.own) s) := by
  induction entries generalizing s with
  | nil => simp [withEntries]
  | cons e rest ih =>
    have own : (muteClaim e s).own = s.own := by
      rw [muteClaim_eq]
      exact congrArg (Option.getD · 0) (congrArg Station.number (toldMuted_kept s.own s e).2.1)
    rw [List.foldl_cons, ih, own, muteClaim_entries, List.filter_filter]
    simp only [muteClaim_eq, toldMuted_fold_withEntries, List.foldl_cons, List.all_cons, Bool.and_comm]
    rfl

/-- R41: the claim table empties itself. -/
theorem muteClaims_eq (s : State) : muteClaims s = s.claims.entries.foldl (toldMuted s.own) (withEntries [] s) := by
  have empty : (s.claims.entries.filter fun x => s.claims.entries.all fun e => x.handle != e.handle) = [] :=
    (muteEntries_entries s.claims.entries s).symm.trans (muteClaims_entries s)
  rw [muteClaims, muteEntries_eq, empty, toldMuted_fold_withEntries]

/-- R89: going ABORTED leaves the staged slot, the peer table and the sump account. -/
theorem abortPlan_kept (record : FaultRecord) (s : State) : (abortPlan record s).staged = s.staged ∧
    (abortPlan record s).peers = s.peers ∧ (abortPlan record s).sump = s.sump := by
  simp [abortPlan_report, abortedPlan]

/-- R90: so does muting the plan. -/
theorem mutePlan_kept (s : State) : (mutePlan s).staged = s.staged ∧ (mutePlan s).peers = s.peers ∧
    (mutePlan s).sump = s.sump := by
  unfold mutePlan
  simp only
  split
  · split
    · simpa using abortPlan_kept _ (stopOrder _ s)
    · exact abortPlan_kept _ s
  · exact abortPlan_kept _ s
  · exact abortPlan_kept _ s
  all_goals exact ⟨rfl, rfl, rfl⟩

/-- R136: the account as the station is muted. -/
theorem muteSump_eq (s : State) : muteSump s = { s with sump := { s.sump with
    state := if s.sump.state = .retryWait then .retryWait else .idle
    purge := if s.sump.state = .purging then none else s.sump.purge } } := by
  unfold muteSump
  split
  · next wants => simp [pressIdle, wants]
  · next purging => simp [pressIdle, purging]
  · next idle =>
    simp only [idle, reduceCtorEq, if_false]
    rw [← idle]
  · next waits =>
    simp only [waits, reduceCtorEq, if_true, if_false]
    rw [← waits]

/-- R82, R90: the record of a plan muted with an order in flight. -/
theorem stopRecord_of_order {o : Order} (cause : Cause) (order : s.active.order = some o) : stopRecord s cause =
    match s.active.fault with
    | some r => { r with cls := .abort, cause := cause, prior := some r.cause, plan := s.active.plan.number
                         origin := cause.origin }
    | none => ⟨.abort, cause, none, s.active.plan.number, s.active.nextSeg, o.kind, o.start, cause.origin⟩ := by
  cases fault : s.active.fault with
  | some r => simp only [stopRecord_of_open cause fault]
  | none => simp only [stopRecord, fault, order, abortRecord, Option.elim]

/-- R90: a RUNNING plan is stopped and aborted. -/
theorem mutePlan_of_running {o : Order} (running : s.active.state = .running) (order : s.active.order = some o) :
    mutePlan s = abortPlan (stopRecord s .duplicateStation) (stopOrder o s) := by
  simp only [mutePlan, running, order]

/-- R90: a PAUSED or ENDING plan is aborted. -/
theorem mutePlan_of_live (live : s.active.state = .paused ∨ s.active.state = .ending) :
    mutePlan s = abortPlan (stopRecord s .duplicateStation) s := by
  obtain h | h := live <;> simp only [mutePlan, h]

/-- R90: any other slot stays as it is. -/
theorem mutePlan_of_other (other : s.active.state = .empty ∨ s.active.state = .done ∨ s.active.state = .aborted) :
    mutePlan s = s := by
  obtain h | h | h := other <;> simp only [mutePlan, h]

/-- R166: muting after the claim table and the plan have been told. -/
theorem muteStation_eq (s : State) :
    let b := mutePlan (muteClaims (muteFloor s))
    muteStation s = report (.trap (.lineFault .duplicateStation 0) 0 none) { b with
      water := { b.water with refresh := none }
      sump := { s.sump with
        state := if s.sump.state = .retryWait then .retryWait else .idle
        purge := if s.sump.state = .purging then none else s.sump.purge } } := by
  intro b
  have told := toldMuted_fold_kept s.own s.claims.entries (withEntries [] (muteFloor s))
  have sump : b.sump = s.sump := by
    obtain ⟨-, -, kept⟩ := mutePlan_kept (muteClaims (muteFloor s))
    obtain ⟨-, -, -, -, -, kept'⟩ := told
    rw [kept, muteClaims_eq]
    exact kept'
  rw [muteStation, muteSump_eq]
  simp only [stopRefresh, ← sump]
  rfl

/-- R163, R166: the listen-in timer stops, and no slot is driven that was not. -/
theorem muteStation_control (s : State) : (muteStation s).floor.listenIn = none ∧
    (muteStation s).floor.drive = s.floor.drive := by
  have after : Moves Scope.all (muteFloor s) (muteStation s) :=
    (((muteClaims_moves trivial rfl).trans (mutePlan_moves (.inl trivial) trivial rfl)).trans (water_moves _ _)).trans
      (muteSump_moves.trans (trap_moves ..))
  obtain ⟨-, -, -, -, -, -, listenIn, -, drive, -⟩ := after.sameControl
  exact ⟨listenIn, drive⟩

end Mute

/-! ### Owners -/

section Owners
variable {k resource : Nat} {s : State}

/-- R7: a holder field cleared where it names a station. -/
theorem clearHolder_eq (id k : Nat) (s : State) : clearHolder id k s = { s with register := { s.register with
    places := s.register.places.map (Option.map fun r =>
      if r.id = id ∧ r.holder = some k then { r with holder := none } else r) } } := by
  simp only [clearHolder, mapSlab, ite_and]

/-- R1: a slab id is no press id. -/
theorem not_isPressId_of_isSlabId {n : Nat} (slab : isSlabId n = true) : isPressId n = false := by
  obtain ⟨station, serial, small, -, last, rfl⟩ := (Proofs.isSlabId_iff n).mp slab
  simp only [isPressId, Bool.and_eq_false_iff, decide_eq_false_iff_not]
  omega

/-- R164: the press-busy flag of a peer. -/
theorem setBusy_of_other (other : s.station.number ≠ some k) (busy : Bool) :
    setBusy k busy s = { s with peers := s.peers.set k { peerOf s k with busy := busy } } := setPeer_of_other other _

/-- R164: the entry of the station's own number is not used. -/
theorem setBusy_of_own (own : s.station.number = some k) (busy : Bool) : setBusy k busy s = s := if_pos own

/-- R30, R33: a CLAIM heard while the table holds the resource. -/
theorem contestClaim_eq (k : Nat) (e : ClaimEntry) (s : State) : contestClaim k e s = match e.stage with
    | .polling => s
    | .tentative => if k < s.own then yieldClaim e.handle k s else s
    | .held => { s with claims := { s.claims with conflicts := min 65535 (s.claims.conflicts + 1) } } := by
  unfold contestClaim
  cases e.stage <;> rfl

/-- R33: a CLAIM heard, `u` being the state once the peer's press-busy flag is set. -/
theorem onClaim_eq (k resource : Nat) (s : State) :
    let u := if isPressId resource then setBusy k true s else s
    onClaim k resource s = if isSlabId resource = false ∧ isPressId resource = false then s
      else match claimOn s resource with
        | none => if isSlabId resource then setHolder resource (some k) s else u
        | some e => contestClaim k e u := by
  intro u
  unfold onClaim
  by_cases slab : isSlabId resource = true
  · have notPress := not_isPressId_of_isSlabId slab
    have same : u = s := if_neg (by simp [notPress])
    rw [if_pos slab, if_neg (by simp [slab]), same]
    cases claimOn s resource with
    | none => exact (if_pos slab).symm
    | some e => rfl
  · by_cases press : isPressId resource = true
    · have same : u = setBusy k true s := if_pos press
      rw [if_neg slab, if_pos press, if_neg (by simp [press]), same]
      cases claimOn s resource with
      | none => exact (if_neg slab).symm
      | some e => rfl
    · rw [if_neg slab, if_neg press, if_pos ⟨by simpa using slab, by simpa using press⟩]

end Owners

end Sys2Proof.Machine

namespace Sys2Proof.Proofs

open Sys2Proof Sys2Proof.Machine Sys2Proof.Safety

/-- Settles O54: by whose notice it is, the attach state, and the entry that holds the resource. -/
theorem heardNoticesReachTheirOwners : Obligations.HeardNoticesReachTheirOwners := by
  refine ⟨fun c k s sent inert => ?_, fun c k s sent small own armed => ?_, clearHolder_eq, takeNotice_eq,
    fun k resource job value slab reason supply rate press c s small own silent => ?_, fun k d s other => peerHeard_eq other d,
    fun k resource job demand s small other on => ?_⟩
  · obtain ⟨kind, demand, owner, -, heard⟩ := exec_heard sent s
    rw [heard, hearNotice_of_inert inert]
  · intro lost silent a record
    obtain ⟨kind, demand, owner, precedence, heard⟩ := exec_heard sent s
    rw [hearNotice_of_duplicate small own armed] at heard
    have emptied : muteClaims (muteFloor (takeNotice kind k s)) = a := by
      rw [muteClaims_eq, takeNotice_eq]
      simp only [a, silent, precedence, lost]
      rfl
    obtain ⟨claims, station, active, staged, peers, sump⟩ := toldMuted_fold_kept s.own s.claims.entries silent
    have plan : a.active = s.active := active
    have whole := muteStation_eq (takeNotice kind k s)
    rw [emptied, takeNotice_sump] at whole
    obtain ⟨listenIn, drive⟩ := muteStation_control (takeNotice kind k s)
    obtain ⟨staged', peers', sump'⟩ := mutePlan_kept a
    refine ⟨_, mutePlan a, heard, muteStation_silent _, listenIn, drive, ?_, ?_, ?_, ?_, ?_, ?_, ?_, fun o running order => ?_,
      fun o ending order => ?_, fun r paused fault => ?_, fun other => mutePlan_of_other (plan ▸ other), whole⟩
    · simp [whole]
    · rw [whole, report_sump]
      simp only
      split <;> simp
    · rw [whole, report_sump]
      simp only
      split <;> simp
    · simp [whole]
    · have dead := mutePlan_not_live a
      rw [← emptied, planLive, ← muteStation_active] at dead
      simpa using dead
    · rw [whole, report_staged]
      exact staged'.trans staged
    · rw [whole, report_peers]
      exact peers'.trans peers
    · rw [mutePlan_of_running (plan ▸ running) (plan ▸ order), stopRecord_of_order _ (plan ▸ order), plan]
      rfl
    · rw [mutePlan_of_live (.inr (plan ▸ ending)), stopRecord_of_order _ (plan ▸ order), plan]
      rfl
    · rw [mutePlan_of_live (.inl (plan ▸ paused)), stopRecord_of_open _ (plan ▸ fault), plan]
      simp only [record, fault]
      rfl
  · intro h
    have muted (kind : Nat) (demand : Option Nat) (owner : State → State) :
        hearNotice kind k demand owner s = launchWrite (owner h) := by
      rw [hearNotice_of_own_muted small own silent.1, takeNotice_of_empty silent.2.1]
    have holder : claimOn h resource = none := claimOn_of_silent (s := h) silent resource
    have busy (b : Bool) : setBusy k b h = h := setBusy_of_own (s := h) own b
    refine ⟨?_, ?_, ?_, ?_, ?_, ?_, ?_⟩
    · refine (congrArg _ (muted 1 none _)).trans ?_
      rw [answerPoll, if_neg (by simp [h, silent.1])]
    · refine (congrArg _ (muted 2 none _)).trans ?_
      rw [onClaim_eq]
      simp only [holder, busy, ite_self]
      by_cases slab : isSlabId resource = true
      · simp only [slab, Bool.true_eq_false, false_and, if_false, if_true]
      · simp only [slab, Bool.false_eq_true, if_false, ite_self]
    · refine (congrArg _ (muted 3 none _)).trans ?_
      simp only [onRelease, busy, ite_self]
    · exact congrArg _ (muted 4 _ _)
    · exact congrArg _ (muted 5 _ _)
    · exact congrArg _ (muted 6 _ _)
    · refine (congrArg _ (muted 7 none _)).trans ?_
      rw [onHello, if_pos (by exact own)]
  · intro heard busy
    have hears (kind : Nat) (d : Option Nat) (owner : State → State) :
        hearNotice kind k d owner s = launchWrite (owner (heard kind d)) := hearNotice_of_peer small other on
    have others (kind : Nat) (d : Option Nat) : (heard kind d).station.number ≠ some k := by simpa [heard] using other
    refine ⟨?_, ?_, ?_, ?_⟩
    · refine (congrArg _ (hears 1 none _)).trans ?_
      have attach : (heard 1 none).floor.attach = s.floor.attach := by
        simp only [heard, peerHeard_attach, takeNotice_eq]
      rw [answerPoll, attach]
      rfl
    · exact congrArg _ (hears 4 _ _)
    · refine (congrArg _ (hears 3 none _)).trans ?_
      rw [onRelease, setBusy_of_other (others 3 none)]
    · refine (congrArg _ (hears 2 none _)).trans ?_
      have own : (if isPressId resource then busy true (heard 2 none) else heard 2 none).own = s.own := by
        split <;> simp [State.own, busy, heard]
      have claimed := onClaim_eq k resource (heard 2 none)
      rw [setBusy_of_other (others 2 none)] at claimed
      simp only [contestClaim_eq] at claimed
      rw [own] at claimed
      exact congrArg _ (congrArg launchWrite claimed)

end Sys2Proof.Proofs

/-! PROOF. SLAB, RETIRE and HELLO as their owners take them (R9, R11 to R14, R62, R165). -/

namespace Sys2Proof.Machine

open Sys2Proof Sys2Proof.Safety

section Owners
variable {slab : Nat} {s : State}

/-- R62: a VALID plan on the slab goes STALE. -/
theorem stalePlan_of_valid {p : Plan} (cause : StaleCause) (valid : s.staged = .valid p) (on : p.slab = slab) :
    stalePlan slab cause s = report (.planStale p.number slab cause) (releaseJobs (distinctJobs p.pieces) { s with
      staged := .stale { p with reservations := 0 } cause
      register := { s.register with reservations := s.register.reservations - p.reservations } }) := by
  subst on
  simp only [stalePlan, valid, if_true]
  rfl

/-- R62: no other content does. -/
theorem stalePlan_of_other (cause : StaleCause) (other : ∀ p, s.staged = .valid p → p.slab ≠ slab) :
    stalePlan slab cause s = s := by
  unfold stalePlan
  split
  · next p valid => exact if_neg (other p valid)
  all_goals rfl

/-- R14: any other slot than an ABORTED one on the slab stays as it is. -/
theorem clearAborted_of_other (other : s.active.state ≠ .aborted ∨ s.active.plan.slab ≠ slab) : clearAborted slab s = s :=
  if_neg (by tauto)

/-- R14: an ABORTED slot on the slab lets go; with an order in flight, of that too. -/
theorem clearAborted_of_aborted (aborted : s.active.state = .aborted) (on : s.active.plan.slab = slab) :
    let w := releaseClaim slab (releaseJobs (distinctJobs s.active.plan.pieces) s)
    (s.active.order = none → clearAborted slab s = emptyActive w) ∧
      ∀ o, s.active.order = some o → clearAborted slab s = emptyActive (dropOrder o w) := by
  intro w
  have active : w.active = s.active := by simp [w]
  have cleared (order : Option Order) (same : w.active.order = order) : clearAborted slab s =
      order.elim (emptyActive w) fun o => emptyActive (dropOrder o w) := by
    subst same
    rw [clearAborted, if_pos ⟨aborted, on⟩]
    change (match w.active.order with | some o => _ | none => _) = _
    cases w.active.order <;> rfl
  exact ⟨fun none => cleared Option.none (active ▸ none), fun o order => cleared (some o) (active ▸ order)⟩

/-- R68: the tag carries on as an order ends. -/
theorem dropOrder_tag (o : Order) (s : State) : (dropOrder o s).active.tag = s.active.tag := rfl

/-- R13: a RETIRE on its owner. -/
theorem onRetire_eq (slab : Nat) (s : State) : onRetire slab s =
    if isSlabId slab = false then countRefused s
    else match findSlab s slab with
      | none => s
      | some r =>
        if r.state = .cutting then countRefused s
        else if r.state = .gone then stampSlab slab s
        else slabGone slab (stampSlab slab (setSlabState slab .gone s)) := by
  unfold onRetire
  refine if_congr Iff.rfl rfl ?_
  cases findSlab s slab with
  | none => rfl
  | some r => cases state : r.state <;> simp [state]

/-- R3, R8: a record's contents and its stamp are changed independently. -/
theorem stampSlab_mapSlab_contents (slab : Nat) (c : SlabContents) (s : State) :
    stampSlab slab (mapSlab slab (fun r => { r with contents := c }) s) =
      mapSlab slab (fun r => { r with contents := c }) (stampSlab slab s) := by
  have both (o : Option SlabRecord) (n : Nat) : (o.map fun r => if r.id = slab then { r with contents := c } else r).map
      (fun r => if r.id = slab then { r with heard := n } else r) =
      (o.map fun r => if r.id = slab then { r with heard := n } else r).map
        fun r => if r.id = slab then { r with contents := c } else r := by
    cases o with
    | none => rfl
    | some r => by_cases here : r.id = slab <;> simp [here]
  simp only [stampSlab, mapSlab, List.map_map, Function.comp_def, both]

/-- R11, R12: a SLAB notice on its owner. -/
theorem onSlab_eq (slab : Nat) (c : SlabContents) (s : State) : onSlab slab c s =
    if isSlabId slab = false ∨ contentsInRange 0 c = false then countRefused s
    else match findSlab s slab with
      | none => match makeRoom s with
        | some u => makeSlab slab c u
        | none => discardNotice slab s
      | some r =>
        if r.state ≠ .stock then countRefused s
        else if r.contents = c then stampSlab slab s
        else stalePlan slab .changed (storeSlab slab
          (mapSlab slab (fun r => { r with contents := c }) (stampSlab slab s))) := by
  unfold onSlab replaceContents
  refine if_congr Iff.rfl rfl ?_
  cases findSlab s slab with
  | none => cases makeRoom s <;> rfl
  | some r => cases state : r.state <;> simp [state, stampSlab_mapSlab_contents]

/-- R165: a HELLO from a peer. -/
theorem onHello_of_other {k : Nat} (other : s.station.number ≠ some k) (f : Fingerprint) : onHello k f s =
    let u : State := { s with peers := s.peers.set k { peerOf s k with fingerprint := some f } }
    if f.supply ≠ s.settings.cfg.supply ∨ f.press ≠ s.settings.cfg.press then
      report (.trap (.configSkew k f.supply f.rate f.press) 0 none) u else u := by
  rw [onHello, if_neg other, setPeer_of_other other]
  rfl

end Owners

end Sys2Proof.Machine

namespace Sys2Proof.Proofs

open Sys2Proof Sys2Proof.Machine Sys2Proof.Safety

/-- Settles O55: each notice by the record it finds, and the slot by its state. -/
theorem slabRetireAndHelloTakeEffect : Obligations.SlabRetireAndHelloTakeEffect := by
  refine ⟨fun k slab reason supply rate press c s small other on => ?_,
    fun slab cause s => ⟨fun p valid at' => stalePlan_of_valid cause valid at', fun none => stalePlan_of_other cause none⟩,
    fun slab s => ⟨fun apart => ?_, fun aborted at' => ⟨fun none => ?_, fun o order => ?_⟩⟩⟩
  · intro heard refusal
    have hears (kind : Nat) (owner : State → State) :
        hearNotice kind k none owner s = launchWrite (owner (heard kind)) := hearNotice_of_peer small other on
    refine ⟨(congrArg _ (hears 6 _)).trans (congrArg _ (congrArg launchWrite (onSlab_eq slab c (heard 6)))),
      (congrArg _ (hears 5 _)).trans (congrArg _ (congrArg launchWrite (onRetire_eq slab (heard 5)))), ?_⟩
    have number : (heard 7).station.number ≠ some k := by simpa [heard] using other
    have settings : (heard 7).settings = s.settings := by simp [heard]
    have effect := onHello_of_other number ⟨supply, rate, press⟩
    exact (congrArg _ (hears 7 _)).trans (congrArg _ (congrArg launchWrite
      (effect.trans (if_congr (by rw [settings]) rfl rfl))))
  · exact clearAborted_of_other (by simpa using apart)
  · have cleared := (clearAborted_of_aborted (s := stalePlan slab .gone s) (by simpa using aborted) (by simpa using at')).1
      (by simpa using none)
    rw [slabGone, cleared, emptyActive, releaseClaim_active, releaseJobs_active, stalePlan_active]
  · have cleared := (clearAborted_of_aborted (s := stalePlan slab .gone s) (by simpa using aborted) (by simpa using at')).2 o
      (by simpa using order)
    rw [slabGone, cleared, emptyActive, dropOrder_tag, releaseClaim_active, releaseJobs_active, stalePlan_active]
    rfl

end Sys2Proof.Proofs

/-! PROOF. The charge of a report (R74, R80, R82, R96, R97, R101 to R105). -/

namespace Sys2Proof.Machine

open Sys2Proof Sys2Proof.Safety

/-! ### The figures -/

/-- R97: an overlap is the difference of its bounds, or 0. -/
theorem overlapWith_eq (lo hi : Int) (limit : Nat) :
    (overlapWith lo hi limit : Int) = max 0 (min hi limit - max lo 0) := by
  rw [overlapWith, Int.ofNat_toNat, max_comm]

/-- R102 to R105: a portion's figures, each rounded up on its own. -/
theorem portionOf_figures (cfg : ConfigFields) (cls depth stone time recycled fresh : Nat) :
    ∃ solids machine water disposal : Nat,
      let wear := wearUnits cfg cls stone depth
      IsLeast { v : Nat | stone * cfg.kerf * depth ≤ v * 1000 } solids ∧
      IsLeast { n : Nat | time * cfg.machineRate ≤ n * 36000 } machine ∧
      IsLeast { n : Nat | recycled * cfg.priceRecycled + fresh * cfg.priceFresh ≤ n * 1000 } water ∧
      IsLeast { n : Nat | solids * cfg.priceDisposal ≤ n * 1000 } disposal ∧
      portionOf cfg cls depth stone time recycled fresh =
        { inStone := min 4294967295 stone, time := min 4294967295 time, recycled := min 4294967295 recycled
          fresh := min 4294967295 fresh, wear := min 4294967295 wear, solids := min 4294967295 solids
          machine := min 4294967295 machine, water := min 4294967295 water
          wearCents := min 4294967295 (wear * cfg.priceWear), disposal := min 4294967295 disposal
          cost := min 4294967295 (machine + water + wear * cfg.priceWear + disposal) } :=
  ⟨removedSolids cfg stone depth, ceilDiv (time * cfg.machineRate) 36000,
    ceilDiv (recycled * cfg.priceRecycled + fresh * cfg.priceFresh) 1000,
    ceilDiv (removedSolids cfg stone depth * cfg.priceDisposal) 1000, ceilDiv_isLeast _ _ (by omega),
    ceilDiv_isLeast _ _ (by omega), ceilDiv_isLeast _ _ (by omega), ceilDiv_isLeast _ _ (by omega), rfl⟩

/-! ### The charge -/

section Charge
variable {s : State}

/-- R126: solids added leave the active slot. -/
theorem addSolids_active (v : Nat) (s : State) : (addSolids v s).active = s.active :=
  Moves.sameSlot (k := ⟨False, True, none⟩) id (addSolids_moves v (.inl trivial))

/-- R80: a portion charged, in the figures of the state it is charged in. -/
theorem chargePortion_figures (o : Order) (length time : Nat) (s : State) :
    let g := s.active.plan.segments.getD o.segment default
    let c := contentsOf s s.active.plan.slab
    let p := portionOf s.settings.cfg c.cls o.depth
      (inStoneLength c g.kind o.start (movedToward g.kind o.start o.stop length)) time
      ((s.water.segRecycled * 10 + s.charge.recycled) / s.settings.kRecycled)
      ((s.water.segFresh * 10 + s.charge.fresh) / s.settings.kFresh)
    let job := (s.active.plan.pieces.getD g.piece default).job
    let d := addSolids p.solids (postJob job (JobRecord.addPortion p (!s.active.charged.getD o.segment false))
      { s with
        charge := ⟨(s.water.segRecycled * 10 + s.charge.recycled) % s.settings.kRecycled,
          (s.water.segFresh * 10 + s.charge.fresh) % s.settings.kFresh⟩
        water := { s.water with segRecycled := 0, segFresh := 0 } })
    let e : State := { d with active := { d.active with
      actual := min max32 (s.active.actual + p.cost), charged := s.active.charged.set o.segment true } }
    chargePortion o length time s =
      if 0 < s.water.segFresh then report (.trap (.freshUsed p.fresh) s.active.plan.number (some o.segment)) e else e := by
  intro g c p job d e
  have active : d.active = s.active := by
    rw [addSolids_active, postJob_active]
  have whole : chargePortion o length time s = if 0 < s.water.segFresh then
      trap (.freshUsed p.fresh) d.active.plan.number (some o.segment) { d with active := { d.active with
        actual := min max32 (d.active.actual + p.cost), charged := d.active.charged.set o.segment true } }
      else { d with active := { d.active with
        actual := min max32 (d.active.actual + p.cost), charged := d.active.charged.set o.segment true } } := rfl
  rw [whole]
  simp only [active, e]
  rfl

end Charge

end Sys2Proof.Machine

namespace Sys2Proof.Proofs

open Sys2Proof Sys2Proof.Machine Sys2Proof.Safety

/-- Settles O45: the charge on the state the trap and the filled record leave, and each figure by its rule. -/
theorem reportIsChargedAsOnePortion : Obligations.ReportIsChargedAsOnePortion := by
  refine ⟨fun o short length time s => ?_, fun thickness overcut g => ⟨fun square => ?_, fun bevel => ?_⟩,
    fun c a b length => ⟨?_, ?_, rfl, rfl, fun low high => ?_, fun out => ?_, fun low high => ?_, fun out => ?_⟩,
    portionOf_figures⟩
  · intro clamped g a b
    have trapped : a = { s with host := a.host } := by
      simp only [a]
      split
      · exact report_frame ..
      · rfl
    have active : a.active = s.active := by rw [trapped]
    have filled : fillReached o clamped a = b := by
      have point : reachedPoint a o clamped = movedToward g.kind o.start o.stop clamped := by rw [reachedPoint, active]; rfl
      rw [fillReached, point]
      exact if_congr (by rw [active]) rfl rfl
    have kept : ∃ fault, b = { s with host := a.host, active := { s.active with fault := fault } } := by
      simp only [b]
      split
      · rw [trapped]
        exact ⟨_, rfl⟩
      · exact ⟨_, trapped⟩
    have charged : chargeReport o short length time s = chargePortion o clamped time b := by
      rw [← filled]
      rfl
    rw [charged]
    clear_value b
    obtain ⟨fault, rfl⟩ := kept
    exact chargePortion_figures o clamped time _
  · simp only [effectiveDepth, square, Bool.false_eq_true, if_false]
  · simp only [effectiveDepth, bevel, if_true]
    exact ceilDiv_isLeast _ _ (by omega)
  · simp [pathLength]
  · simp [pathLength]
  · simp only [inStoneLength, low, high, and_self, if_true]
    exact overlapWith_eq ..
  · simp only [inStoneLength]
    exact if_neg (by omega)
  · simp only [inStoneLength, low, high, and_self, if_true]
    exact overlapWith_eq ..
  · simp only [inStoneLength]
    exact if_neg (by omega)

end Sys2Proof.Proofs

/-! PROOF. A plan that completes, step by step, and the remnants made of its slab (O48). -/
namespace Sys2Proof.Machine

open Sys2Proof Sys2Proof.Safety

section Completion
variable {s : State}

/-- R91: what stands between the shares posted and the slot DONE leaves the active slot. -/
theorem slabSettled_active (s : State) : (slabSettled s).active = (materialPosted s).active := by
  simp only [slabSettled, releaseJobs_active, releaseClaim_active, announce_active, setSlabState_active]
  exact Moves.sameSlot (k := Scope.quiet) id ((makeRemnants_moves ..).trans (announceSlabs_moves _ (.inl trivial)))

theorem materialPosted_eq (s : State) : materialPosted s =
    { (completionLines s).foldl (fun u l => postJob l.job (JobRecord.addMaterial l.area l.cents) u) s with
      active := { s.active with
        actual := (completionLines s).foldl (fun t l => min max32 (t + l.cents)) s.active.actual } } := by
  have kept := postMaterial_active (completionLines s) s
  simp only [materialPosted, kept]
  rfl

theorem planDone_active (s : State) : (planDone s).active =
    { s.active with
      state := .done, pending := Pending.none
      actual := (completionLines s).foldl (fun t l => min max32 (t + l.cents)) s.active.actual
      plan := { s.active.plan with
        reservations := s.active.plan.reservations - s.active.plan.remnants.length } } := by
  rw [planDone, (setActiveState_calm (by simp)).1, slabSettled_active, materialPosted_eq]

/-- R91: the reports of a completed plan, and COST OVER ESTIMATE judged on its actual total. -/
theorem completePlan_reports (s : State) :
    let lines := completionLines s
    let actual := lines.foldl (fun t l => min max32 (t + l.cents)) s.active.actual
    let number := s.active.plan.number
    let estimated := s.active.plan.estimate.elim 0 (·.total)
    let g := reports (.planComplete number s.active.plan.slab (remnantsMade s).1 actual lines.length ::
      lines.map (.completeLine number)) (planDone s)
    completePlan s =
      if 5 * estimated < 4 * actual then report (.trap (.costOverEstimate actual estimated) number none) g else g := by
  intro lines actual number estimated g
  have total : (planDone s).active.actual = actual := by rw [planDone_active]
  have active : g.active = (planDone s).active := reports_active ..
  have whole : completePlan s = judgeEstimate g.active.actual estimated g := by
    rw [completePlan_eq, total]
    rfl
  rw [whole, judgeEstimate, active, total, planDone_active]
  rfl

/-- R2: the serial counter advanced leaves the records. -/
theorem advanceSerial_frame (s : State) : advanceSerial s =
    { s with
      register := { s.register with serial := nextSerial (serialToIssue s) }
      store := (queueWrite .serial s).store } := by
  simp only [advanceSerial, queueWrite]
  split <;> rfl

/-- R17: one remnant made in the lowest free place. -/
theorem makeRemnant_of_free {i : Nat} (parent : Nat) (c : SlabContents) (r : Rect) (free : lowestFree s = some i) :
    makeRemnant parent c r s = (idToIssue s, { s with
      register := { s.register with
        serial := nextSerial (serialToIssue s), heard := min max32 (s.register.heard + 1)
        reservations := s.register.reservations - 1
        places := s.register.places.set i (some
          { id := idToIssue s
            contents := ⟨c.cls, c.thickness, r.w, r.h, c.price, some parent, c.defects.filterMap (carriedDefect r)⟩
            state := .stock, holder := none, heard := min max32 (s.register.heard + 1) }) }
      store := (queueWrite (.slab i) (queueWrite .serial s)).store }) := by
  have found : lowestFree (dropReservations 1 (advanceSerial s)) = some i := by
    rw [advanceSerial_frame]
    exact free
  rw [makeRemnant, makeSlab, found, advanceSerial_frame]
  simp only [queueWrite, dropReservations]
  split <;> split <;> rfl

/-- R17: the part of a defect that the closed rectangles share, from the remnant's corner. -/
theorem carriedDefect_figures (r : Rect) (d : Defect) :
    (carriedDefect r d = none ↔ d.x + d.w < r.x ∨ r.x + r.w < d.x ∨ d.y + d.h < r.y ∨ r.y + r.h < d.y) ∧
    (∀ q, carriedDefect r d = some q → q.kind = d.kind ∧ r.x + q.x = max d.x r.x ∧ r.y + q.y = max d.y r.y ∧
      r.x + q.x + q.w = min (d.x + d.w) (r.x + r.w) ∧ r.y + q.y + q.h = min (d.y + d.h) (r.y + r.h)) := by
  simp only [carriedDefect]
  split
  · next meet =>
    refine ⟨iff_of_false nofun (by omega), fun q some => ?_⟩
    obtain rfl := Option.some.inj some
    exact ⟨rfl, by simp only; omega, by simp only; omega, by simp only; omega, by simp only; omega⟩
  · next apart => exact ⟨iff_of_true rfl (by omega), nofun⟩

end Completion

end Sys2Proof.Machine

namespace Sys2Proof.Proofs

open Sys2Proof Sys2Proof.Machine Sys2Proof.Safety

/-- Settles O48: the parts of a completion by name, one remnant in the lowest free place, the shared part of a defect. -/
theorem completedPlanSettlesTheSlab : Obligations.CompletedPlanSettlesTheSlab := by
  refine ⟨fun s => ?_, fun parent c r i s free => ⟨_, makeRemnant_of_free parent c r free, rfl, rfl, rfl⟩,
    carriedDefect_figures⟩
  intro p c lines a actual made b d e f g estimated
  have remnants : remnantsMade s = made := by
    rw [remnantsMade, materialPosted_eq]
    rfl
  have settled : slabSettled s = e := by
    rw [slabSettled, remnants]
  have done : planDone s = f := by
    rw [planDone, settled]
    rfl
  rw [completePlan_reports, remnants, done]
  rfl

end Sys2Proof.Proofs

/-! PROOF. The reading commands: READ SLAB, LIST SLABS, READ JOB, READ STATION, READ PEERS (O31). -/
namespace Sys2Proof.Machine

open Sys2Proof Sys2Proof.Safety

/-! ### The order of LIST SLABS -/

theorem insertById_eq (e : Nat × SlabState) (l : List (Nat × SlabState)) :
    insertById e l = l.orderedInsert (fun a b => a.1 ≤ b.1) e := by
  induction l with
  | nil => rfl
  | cons x rest ih => simp only [insertById, List.orderedInsert_cons, ih]

theorem slabsFrom_eq (s : State) (start : Nat) : slabsFrom s start =
    (((slabRecords s).filter fun r => decide (start ≤ r.id)).map fun r => (r.id, r.state)).insertionSort
      (fun a b => a.1 ≤ b.1) := by
  have insert : insertById = List.orderedInsert (fun a b : Nat × SlabState => a.1 ≤ b.1) := by
    funext e l
    exact insertById_eq e l
  rw [slabsFrom, insert]
  rfl

theorem slabsFrom_perm (s : State) (start : Nat) : (slabsFrom s start).Perm
    (((slabRecords s).filter fun r => decide (start ≤ r.id)).map fun r => (r.id, r.state)) := by
  rw [slabsFrom_eq]
  exact List.perm_insertionSort ..

theorem slabsFrom_ascending (s : State) (start : Nat) : ((slabsFrom s start).map (·.1)).Pairwise (· ≤ ·) := by
  have total : Std.Total (fun a b : Nat × SlabState => a.1 ≤ b.1) := ⟨fun a b => Nat.le_total a.1 b.1⟩
  have trans : IsTrans (Nat × SlabState) (fun a b => a.1 ≤ b.1) := ⟨fun _ _ _ => Nat.le_trans⟩
  rw [List.pairwise_map, slabsFrom_eq]
  exact List.pairwise_insertionSort ..

/-- R3: with one record for any id, no id is listed twice. -/
theorem slabsFrom_strict {s : State} (start : Nat) (distinct : slabsDistinct s) :
    ((slabsFrom s start).map (·.1)).Pairwise (· < ·) := by
  have once : ((slabsFrom s start).map (·.1)).Nodup := by
    rw [((slabsFrom_perm s start).map (·.1)).nodup_iff, List.map_map]
    exact distinct.sublist (List.filter_sublist.map _)
  exact (List.pairwise_and_iff.mpr ⟨slabsFrom_ascending s start, once⟩).imp fun ⟨le, ne⟩ => lt_of_le_of_ne le ne

/-! ### The station's view -/

/-- R177: the view handed with room for it: the overflow flag is cleared. -/
theorem sendView_of_admitted {v : StationView} {u : State} (room : admits (.stationView v) u = true) :
    sendView v u = { u with host := { u.host with
      outbound := u.host.outbound ++ [⟨.stationView v, false⟩], overflow := false } } := by
  rw [sendView, if_pos room, report_admitted room]

theorem sendView_of_dropped {v : StationView} {u : State} (full : admits (.stationView v) u = false) :
    sendView v u = report (.stationView v) u := by
  rw [sendView, if_neg (by simp [full])]

theorem Report.size_stationView (v : StationView) : (Report.stationView v).size = 45 := by
  simp [Report.size, Report.body, StationView.bytes, le16_length, le32_length]

/-- R172: after the acceptance of a command taken there is room for a further report. -/
theorem admits_after_accept {r : Report} {s : State} (command : Nat) (room : roomToAnswer s) (size : r.size ≤ 245) :
    admits r (acceptedBy command s) = true := by
  obtain ⟨frames, bytes⟩ := room
  refine (admits_iff _ _).mpr ⟨?_, ?_⟩
  · simp only [answered, List.length_append, List.length_singleton]
    omega
  · simp only [answered, heldBytes_append_one, Report.size_accepted_bare]
    omega

/-- A time in tenths is rounded down or up to a whole one. -/
theorem tenthsOf_cases (ms : Nat) :
    (ms % 100 = 0 → tenthsOf ms = ms / 100) ∧ (tenthsOf ms = ms / 100 ∨ tenthsOf ms = ms / 100 + 1) := by
  unfold tenthsOf
  refine ⟨fun whole => if_pos whole, ?_⟩
  split
  · exact .inl rfl
  · unfold bitIf
    split
    · exact .inr rfl
    · exact .inl rfl

end Sys2Proof.Machine

namespace Sys2Proof.Proofs

open Sys2Proof Sys2Proof.Machine Sys2Proof.Safety

/-- Settles O31: each reading command run on the state it is taken in, and its view of the part. -/
theorem readingCommandsAnswerAndChangeNothing : Obligations.ReadingCommandsAnswerAndChangeNothing := by
  refine ⟨fun id s h => ?_, fun start s h => ?_, fun job s h => ?_, fun s h => ?_, fun v u => ?_, fun s h => ?_,
    tenthsOf_cases⟩
  · have run : exec (.readSlab id) s = .next (launchWrite (runReadSlab id (popInbound s))) := takeCommand_of_ready h
    rw [run]
    refine ⟨fun bad => ?_, fun good none => ?_, fun r good found => ?_⟩
    · rw [runReadSlab, if_pos (by simp [bad]), refuse_popInbound _ _ h.2]
    · have none' : findSlab (popInbound s) id = Option.none := none
      rw [runReadSlab, if_neg (by simp [good]), none']
      simp only [refuse_popInbound 0x02 .unknownSlab h.2]
    · have found' : findSlab (popInbound s) id = some r := found
      rw [runReadSlab, if_neg (by simp [good]), found']
      simp only [accept_popInbound 0x02 h.2]
      rfl
  · have run : exec (.listSlabs start) s = .next (launchWrite (runListSlabs start (popInbound s))) :=
      takeCommand_of_ready h
    rw [run]
    refine ⟨fun high => ?_, fun low => ⟨slabsFrom s start, ?_, slabsFrom_perm s start, slabsFrom_ascending s start,
      slabsFrom_strict start⟩⟩
    · rw [runListSlabs, if_pos high, refuse_popInbound _ _ h.2]
    · rw [runListSlabs, if_neg (by omega), accept_popInbound _ h.2]
      rfl
  · have run : exec (.readJob job) s = .next (launchWrite (runReadJob job (popInbound s))) := takeCommand_of_ready h
    rw [run]
    refine ⟨fun zero => ?_, fun nonzero none => ?_, fun j nonzero found => ?_⟩
    · rw [runReadJob, if_pos zero, refuse_popInbound _ _ h.2]
    · have none' : findJob (popInbound s) job = Option.none := none
      rw [runReadJob, if_neg nonzero, none']
      simp only [refuse_popInbound 0x16 .jobNotOpen h.2]
    · have found' : findJob (popInbound s) job = some j := found
      rw [runReadJob, if_neg nonzero, found']
      simp only [accept_popInbound 0x16 h.2]
      rfl
  · intro view u
    have run : exec .readStation s = .next (launchWrite (runReadStation (popInbound s))) := takeCommand_of_ready h
    have room : admits (.stationView view) u = true :=
      admits_after_accept 0x19 h.2 (by rw [Report.size_stationView]; omega)
    rw [run, runReadStation, accept_popInbound _ h.2]
    exact congrArg (fun t => Host.Outcome.next (launchWrite t)) (sendView_of_admitted room)
  · intro admitted
    have iff : admits (.stationView v) u = true ↔ admitted := by
      rw [admits_iff]
      exact and_congr Nat.lt_succ_iff (by rw [Report.size, ← Nat.add_assoc]; exact Iff.rfl)
    exact ⟨fun room => sendView_of_admitted (iff.mpr room), fun full => sendView_of_dropped <| by
      rw [← Bool.not_eq_true]
      exact fun room => full (iff.mp room)⟩
  · intro shown
    have run : exec .readPeers s = .next (launchWrite (runReadPeers (popInbound s))) := takeCommand_of_ready h
    have entry (k : Nat) : peerEntry (popInbound s) k = shown k := by
      simp only [peerEntry, shown, Bool.beq_eq_decide_eq]
      rfl
    rw [run, runReadPeers, accept_popInbound _ h.2]
    simp only [peerFrames, peerFrame, entry, List.map_cons, List.map_nil]

end Sys2Proof.Proofs

/-! PROOF. ENTER SLAB, and the change of one record of the register (O30). -/
namespace Sys2Proof.Machine

open Sys2Proof Sys2Proof.Safety

section Record
variable {s : State} {id i : Nat} {r : SlabRecord}

/-! ### The record that alone bears its id -/

/-- R3: no record but that of place `i` bears the id. -/
def onlyHere (id i : Nat) (s : State) : Prop :=
  ∀ k, k ≠ i → ∀ q, s.register.places[k]? = some (some q) → q.id ≠ id

theorem findSlab_of_alone (here : s.register.places[i]? = some (some r)) (mine : r.id = id)
    (alone : onlyHere id i s) : findSlab s id = some r := by
  cases found : findSlab s id with
  | none =>
    exact absurd mine (findSlab_eq_none_iff.mp found r (mem_slabRecords.mpr (List.mem_of_getElem? here)))
  | some q =>
    obtain ⟨mem, named⟩ := mem_of_findSlab found
    obtain ⟨k, atK⟩ := List.mem_iff_getElem?.mp (mem_slabRecords.mp mem)
    by_cases same : k = i
    · subst same
      exact (Option.some.inj (atK.symm.trans here))
    · exact absurd named (alone k same q atK)

theorem onlyHere_set (q : SlabRecord) (alone : onlyHere id i s) : onlyHere id i
    { s with register := { s.register with places := s.register.places.set i (some q) } } := by
  intro k other p found
  rw [List.getElem?_set_ne (Ne.symm other)] at found
  exact alone k other p found

theorem getElem?_set_of_getElem? {places : List (Option SlabRecord)} {o : Option SlabRecord} (here : places[i]? = some o)
    (q : SlabRecord) : (places.set i (some q))[i]? = some (some q) := by
  obtain ⟨lt, -⟩ := List.getElem?_eq_some_iff.mp here
  rw [List.getElem?_set_self lt]

theorem mapSlab_of_alone (f : SlabRecord → SlabRecord) (here : s.register.places[i]? = some (some r)) (mine : r.id = id)
    (alone : onlyHere id i s) : mapSlab id f s =
      { s with register := { s.register with places := s.register.places.set i (some (f r)) } } := by
  have places : s.register.places.map (Option.map fun r => if r.id = id then f r else r) =
      s.register.places.set i (some (f r)) :=
    map_places_of_alone here (by simp [mine]) rfl fun k other q found => by simp [alone k other q found]
  rw [mapSlab, places]

theorem setSlabState_of_alone (st : SlabState) (here : s.register.places[i]? = some (some r)) (mine : r.id = id)
    (alone : onlyHere id i s) : setSlabState id st s = queueWrite (.slab i)
      { s with register := { s.register with places := s.register.places.set i (some { r with state := st }) } } := by
  rw [setSlabState, mapSlab_of_alone _ here mine alone]
  exact storeSlab_of_alone (r := { r with state := st }) (getElem?_set_of_getElem? here _) mine (onlyHere_set _ alone)

/-! ### A number of no record -/

theorem mapSlab_of_none (f : SlabRecord → SlabRecord) (none : findSlab s id = none) : mapSlab id f s = s := by
  have others := findSlab_eq_none_iff.mp none
  have places : s.register.places.map (Option.map fun r => if r.id = id then f r else r) = s.register.places := by
    refine (List.map_congr_left fun o mem => ?_).trans (List.map_id _)
    cases o with
    | none => rfl
    | some r => simp [others r (mem_slabRecords.mpr mem)]
  rw [mapSlab, places]

theorem storeSlab_of_none (none : findSlab s id = none) : storeSlab id s = s := by
  have others := findSlab_eq_none_iff.mp none
  have place : slabPlace s id = Option.none := by
    refine List.findIdx?_eq_none_iff.mpr fun o mem => ?_
    cases o with
    | none => rfl
    | some r => simpa using others r (mem_slabRecords.mpr mem)
  rw [storeSlab, place]
  rfl

end Record

/-! ### The ranges of contents -/

theorem contentsInRange_iff (least : Nat) (c : SlabContents) : contentsInRange least c = true ↔ contentsHold least c := by
  have parent : c.parent.all isSlabId = true ↔ ∀ p, c.parent = some p → namesSlab p := by
    cases c.parent with
    | none => simp
    | some p => simp [Proofs.isSlabId_iff]
  simp only [contentsInRange, contentsHold, defectFits, Bool.and_eq_true, decide_eq_true_eq, List.all_eq_true, parent,
    and_assoc]

/-! ### ENTER SLAB -/

section EnterSlab
variable {s u : State}

theorem removeSlab_popInbound (id : Nat) (s : State) : removeSlab id (popInbound s) = popInbound (removeSlab id s) := by
  have place : slabPlace (popInbound s) id = slabPlace s id := rfl
  simp only [removeSlab, storeSlab, place]
  cases slabPlace s id with
  | none => rfl
  | some i =>
    simp only [Option.elim, queueWrite]
    split
    · next waits => exact (if_pos waits).symm ▸ rfl
    · next new => exact (if_neg new).symm ▸ rfl

theorem makeRoom_popInbound (s : State) : makeRoom (popInbound s) = (makeRoom s).map popInbound := by
  have free : freePlaces (popInbound s) = freePlaces s := rfl
  have choice : evictionChoice (popInbound s) = evictionChoice s := rfl
  simp only [makeRoom, free, choice, removeSlab_popInbound]
  split
  · rfl
  · rw [Option.map_map]
    rfl

theorem makeRoom_host (room : makeRoom s = some u) : u.host = s.host := by
  obtain ⟨rfl, -⟩ | ⟨r, -, -, rfl⟩ := makeRoom_cases room
  · rfl
  · simp [removeSlab]

/-- R18, R2, R8: the record made and queued, in the state the reply leaves. -/
theorem makeSlab_of_free {i id : Nat} (c : SlabContents) (free : lowestFree u = some i) :
    makeSlab id c (advanceSerial u) = queueWrite (.slab i) (queueWrite .serial
      { u with register := { u.register with
        serial := nextSerial (serialToIssue u), heard := min max32 (u.register.heard + 1)
        places := u.register.places.set i (some ⟨id, c, .stock, none, min max32 (u.register.heard + 1)⟩) } }) := by
  have found : lowestFree (advanceSerial u) = some i := by
    rw [advanceSerial_frame]
    exact free
  rw [makeSlab, found, advanceSerial_frame]
  simp only [queueWrite]
  split <;> split <;> rfl

/-- R2, R18: the record made under the id issued is the one its SLAB notice is made of. -/
theorem announceSlab_makeSlab {i : Nat} (c : SlabContents) (places : u.register.places.length ≤ 64)
    (free : lowestFree u = some i) : announceSlab (idToIssue u) (makeSlab (idToIssue u) c (advanceSerial u)) =
      announce (.slab (idToIssue u) c) (queueWrite (.slab i) (queueWrite .serial
        { u with register := { u.register with
          serial := nextSerial (serialToIssue u), heard := min max32 (u.register.heard + 1)
          places := u.register.places.set i
            (some ⟨idToIssue u, c, .stock, none, min max32 (u.register.heard + 1)⟩) } })) := by
  have fresh := findSlab_eq_none_iff.mp (idToIssue_fresh places)
  have shown : findSlab (makeSlab (idToIssue u) c (advanceSerial u)) (idToIssue u) =
      some ⟨idToIssue u, c, .stock, none, min max32 (u.register.heard + 1)⟩ := by
    rw [makeSlab_of_free c free]
    refine findSlab_of_alone (i := i) ?_ rfl fun k other q found => ?_
    · simpa only [queueWrite_register] using getElem?_set_of_getElem? (lowestFree_spec free) _
    · simp only [queueWrite_register, List.getElem?_set_ne (Ne.symm other)] at found
      exact fresh q (mem_slabRecords.mpr (List.mem_of_getElem? found))
  rw [announceSlab, contentsOf, shown, makeSlab_of_free c free]
  rfl

theorem enterSlab_eq {i : Nat} (c : SlabContents) (places : u.register.places.length ≤ 64)
    (free : lowestFree u = some i) (room : roomToAnswer u) : enterSlab c (popInbound u) =
      announce (.slab (idToIssue u) c) (queueWrite (.slab i) (queueWrite .serial
        (answered (.accepted 0x01 (.slabId (idToIssue u)))
          { u with register := { u.register with
            serial := nextSerial (serialToIssue u), heard := min max32 (u.register.heard + 1)
            places := u.register.places.set i
              (some ⟨idToIssue u, c, .stock, none, min max32 (u.register.heard + 1)⟩) } }))) := by
  have reply : acceptWith 0x01 (.slabId (idToIssue u)) (popInbound u) =
      answered (.accepted 0x01 (.slabId (idToIssue u))) u :=
    report_popInbound room (by simp [Report.size, Report.body, Accepted.bytes, le16_length])
  have whole : enterSlab c (popInbound u) = announceSlab (idToIssue u) (makeSlab (idToIssue u) c (advanceSerial
      (acceptWith 0x01 (.slabId (idToIssue u)) (popInbound u)))) := rfl
  rw [whole, reply]
  exact announceSlab_makeSlab (u := answered (.accepted 0x01 (.slabId (idToIssue u))) u) c places free

/-- R18: ENTER SLAB as it is taken: whether there is room is the last of its checks. -/
theorem runEnterSlab_eq_checked (c : SlabContents) (s : State) : runEnterSlab c (popInbound s) =
    checked 0x01 (enterSlabTable c s) (fun t => (makeRoom s).elim t fun u => enterSlab c (popInbound u)) (popInbound s) := by
  have unread : (popInbound s).station.number = s.station.number := rfl
  simp only [runEnterSlab, enterSlabTable, checked_cons, checked_nil, unread, makeRoom_popInbound]
  cases makeRoom s with
  | none => rfl
  | some u => rfl

end EnterSlab

/-- R15: the attach states in which the register hands a notice. -/
theorem announce_cases (n : Notice) (s : State) :
    ((s.floor.attach = .listening ∨ s.floor.attach = .active) → announce n s = handNotice n none s) ∧
    ((s.floor.attach = .inert ∨ s.floor.attach = .muted) → announce n s = s) := by
  refine ⟨fun hands => if_pos hands, fun silent => if_neg ?_⟩
  obtain inert | muted := silent
  · simp [inert]
  · simp [muted]

end Sys2Proof.Machine

namespace Sys2Proof.Proofs

open Sys2Proof Sys2Proof.Machine Sys2Proof.Safety

/-- Settles O30: the record entered, and one record's change by the place that alone bears its id. -/
theorem enterSlabMakesARecord : Obligations.EnterSlabMakesARecord := by
  refine ⟨contentsInRange_iff, fun cls thickness width height price defects s => ?_, announce_cases,
    fun id i r s here mine alone => ?_, fun id s none => ?_⟩
  · intro c contents h places
    have run : exec c s = .next (launchWrite (runEnterSlab contents (popInbound s))) := takeCommand_of_ready h
    rw [run]
    refine ⟨fun why refused => ?_, fun own u i numbered within made free => ?_⟩
    · rw [runEnterSlab_eq_checked, checked_refused h.2 refused]
    · have room : roomToAnswer u := by
        rw [roomToAnswer, makeRoom_host made]
        exact h.2
      have passed : firstRefusal (enterSlabTable contents s) = none := by
        simp [enterSlabTable, firstRefusal_eq_none_iff, numbered, within, made]
      rw [runEnterSlab_eq_checked, checked_run passed, made, Option.elim_some,
        enterSlab_eq contents ((makeRoom_places_length made).trans places).le free room]
  · intro holding
    refine ⟨findSlab_of_alone here mine alone, fun st => setSlabState_of_alone st here mine alone,
      storeSlab_of_alone here mine alone, fun h => mapSlab_of_alone _ here mine alone, ?_⟩
    exact mapSlab_of_alone (s := { s with register := { s.register with heard := min max32 (s.register.heard + 1) } })
      _ here mine alone
  · refine ⟨fun st => ?_, storeSlab_of_none none, fun h => mapSlab_of_none _ none⟩
    rw [setSlabState, mapSlab_of_none _ none, storeSlab_of_none none]

end Sys2Proof.Proofs

/-! PROOF. The store's writes, one by one (O27). -/
namespace Sys2Proof.Machine

open Sys2Proof Sys2Proof.Safety

/-! ### What a write leaves -/

section Writes
variable {st : Store} {w : StoreWrite} {s : State}

theorem Store.complete_of_place (plain : w.place ≠ .erase) : st.complete w = st.put w.place w.bytes := by
  unfold Store.complete
  split
  · next erase => exact absurd erase plain
  · rfl

theorem Store.leave_of_place (use : Nat) (plain : w.place ≠ .erase) :
    st.leave use w = st.put w.place (leftBytes use (st.bytesAt w.place) w.bytes) := by
  unfold Store.leave
  split
  · next erase => exact absurd erase plain
  · rfl

/-- R185: an erase completed leaves every slab and job place empty. -/
theorem Store.complete_of_erase (erase : w.place = .erase) (slabs : st.slabs.length = 64) (jobs : st.jobs.length = 24) :
    st.complete w = { st with
      slabs := List.replicate 64 (slabPlaceBytes none), jobs := List.replicate 24 (jobPlaceBytes none) } := by
  have cleared : st.slabs.mapIdx (fun i b => if i < 88 then erasedPlace 61 else b) =
      List.replicate 64 (slabPlaceBytes none) := by
    refine List.ext_getElem (by simp [slabs]) fun i small _ => ?_
    rw [List.length_mapIdx, slabs] at small
    rw [List.getElem_mapIdx, List.getElem_replicate, if_pos (by omega)]
    rfl
  have emptied : st.jobs.mapIdx (fun i b => if 64 + i < 88 then erasedPlace 63 else b) =
      List.replicate 24 (jobPlaceBytes none) := by
    refine List.ext_getElem (by simp [jobs]) fun i small _ => ?_
    rw [List.length_mapIdx, jobs] at small
    rw [List.getElem_mapIdx, List.getElem_replicate, if_pos (by omega)]
    rfl
  rw [Store.complete, erase]
  simp only [Store.eraseFirst, cleared, emptied]

/-- Log entry 13: what an erase cut short leaves of the place of a number, `n` having been cleared before it stopped. -/
def erasedUpTo (use n reached : Nat) (empty before : List Byte) : List Byte :=
  if reached < n then empty else if reached = n then leftBytes use before empty else before

/-- Log entry 13: the places cleared and the one left as it stood, of the places that begin at a number. -/
theorem mapIdx_erasedUpTo {use n first : Nat} {empty : List Byte} (places : List (List Byte)) :
    places.mapIdx (fun i bs => erasedUpTo use n (first + i) empty bs) =
      if first ≤ n then
        let cleared := places.mapIdx fun i b => if first + i < n then empty else b
        cleared.set (n - first) (leftBytes use (cleared.getD (n - first) []) empty)
      else places := by
  split
  · next reached =>
    refine List.ext_getElem (by simp) fun i small _ => ?_
    rw [List.length_mapIdx] at small
    rw [List.getElem_mapIdx, List.getElem_set, erasedUpTo]
    split
    · next before => rw [if_neg (by omega), List.getElem_mapIdx, if_pos before]
    · next before =>
      by_cases here : first + i = n
      · have place : n - first = i := by omega
        rw [if_pos here, if_pos place, place, List.getD_eq_getElem _ _ (by simpa using small), List.getElem_mapIdx,
          if_neg before]
      · rw [if_neg here, if_neg (by omega), List.getElem_mapIdx, if_neg before]
  · next beyond =>
    refine List.ext_getElem (by simp) fun i small _ => ?_
    rw [List.getElem_mapIdx, erasedUpTo, if_neg (by omega), if_neg (by omega)]

theorem mapIdx_of_beyond {n first : Nat} {empty : List Byte} (places : List (List Byte)) (beyond : n ≤ first) :
    places.mapIdx (fun i b => if first + i < n then empty else b) = places := by
  refine List.ext_getElem (by simp) fun i small _ => ?_
  rw [List.getElem_mapIdx, if_neg (by omega)]

/-- Log entry 13: an erase the store did not complete. -/
theorem Store.leave_of_erase (use : Nat) (erase : w.place = .erase) (slabs : st.slabs.length = 64) :
    st.leave use w = { st with
      slabs := st.slabs.mapIdx fun i bs => erasedUpTo use (Config.eraseReached use % 89) (0 + i) (slabPlaceBytes none) bs
      jobs := st.jobs.mapIdx fun i bs =>
        erasedUpTo use (Config.eraseReached use % 89) (64 + i) (jobPlaceBytes none) bs } := by
  rw [Store.leave, erase, mapIdx_erasedUpTo, mapIdx_erasedUpTo]
  simp only
  split
  · next inSlabs =>
    rw [if_pos (Nat.zero_le _), if_neg (by omega)]
    simp only [Store.leaveAt, Store.put, Store.bytesAt, Store.eraseFirst, Nat.zero_add, Nat.sub_zero,
      mapIdx_of_beyond st.jobs inSlabs.le]
    rfl
  · next inJobs =>
    rw [if_pos (Nat.zero_le _), if_pos (by omega)]
    simp only [Store.leaveAt, Store.put, Store.bytesAt, Store.eraseFirst, Nat.zero_add, Nat.sub_zero]
    have none (bytes : List Byte) (f : Nat → List Byte → List Byte) :
        (st.slabs.mapIdx f).set (Config.eraseReached use % 89) bytes = st.slabs.mapIdx f :=
      List.set_eq_of_length_le (by rw [List.length_mapIdx, slabs]; omega)
    rw [none]
    rfl

/-! ### The end of the write in flight -/

theorem exec_storeWriteDone (flying : s.store.inFlight = some w) : exec .storeWriteDone s =
    .next (launchWrite { s with store := { s.store.complete w with inFlight := none } }) := by
  have whole : exec .storeWriteDone s = execStoreWriteDone s := rfl
  rw [whole, execStoreWriteDone, flying]

theorem exec_storeWriteTimeout (flying : s.store.inFlight = some w) : exec .storeWriteTimeout s =
    .next (launchWrite { s with
      store := { s.store.leave s.freeUses w with inFlight := none, faults := bump16 s.store.faults }
      freeUses := s.freeUses + 1 }) := by
  have whole : exec .storeWriteTimeout s = execStoreWriteTimeout s := rfl
  rw [whole, execStoreWriteTimeout, flying]

theorem exec_store_idle (idle : s.store.inFlight = none) :
    exec .storeWriteDone s = .next s ∧ exec .storeWriteTimeout s = .next s := by
  have done : exec .storeWriteDone s = execStoreWriteDone s := rfl
  have timeout : exec .storeWriteTimeout s = execStoreWriteTimeout s := rfl
  rw [done, timeout, execStoreWriteDone, execStoreWriteTimeout, idle]
  exact ⟨rfl, rfl⟩

theorem launchWrite_of_waiting {p : StorePlace} {rest : List StorePlace} (idle : s.store.inFlight = none)
    (waits : s.store.queue = p :: rest) : launchWrite s = { s with store := { s.store with
      queue := rest, inFlight := some ⟨p, placeBytes s p, writeTime p⟩ } } := by
  rw [launchWrite, idle, waits]

theorem writeTime_eq (p : StorePlace) : writeTime p = if p = .erase then 450 else 5 := by
  cases p with
  | erase => rfl
  | _ => rfl

theorem launchWrite_of_busy (busy : s.store.inFlight.isSome = true ∨ s.store.queue = []) : launchWrite s = s := by
  unfold launchWrite
  split
  · next idle waits => simp [idle, waits] at busy
  · rfl

end Writes

end Sys2Proof.Machine

namespace Sys2Proof.Proofs

open Sys2Proof Sys2Proof.Machine Sys2Proof.Safety

/-- Settles O27: a place written or left, an erase by the places it had cleared, and the queue of writes. -/
theorem storeWritesGoOutOneByOne : Obligations.StoreWritesGoOutOneByOne := by
  refine ⟨fun s w flying => ?_, leftBytes_cases, fun s => exec_store_idle, fun s p rest idle waits => ?_,
    fun s => launchWrite_of_busy, fun s p => rfl⟩
  · intro old holding failed
    have put (bytes : List Byte) (plain : w.place ≠ .erase) :
        holding bytes = { s.store.put w.place bytes with inFlight := none } := by
      revert plain
      simp only [holding]
      cases w.place with
      | erase => exact fun no => absurd rfl no
      | _ => exact fun _ => rfl
    have bytes : s.store.bytesAt w.place = old := by
      simp only [old]
      cases w.place with
      | _ => rfl
    rw [exec_storeWriteDone flying, exec_storeWriteTimeout flying]
    refine ⟨fun plain => ?_, fun plain => ?_, fun erase slabs jobs => ⟨?_, ?_⟩⟩
    · rw [Store.complete_of_place plain, put _ plain]
    · rw [Store.leave_of_place _ plain, bytes]
      simp only [failed, put _ plain]
      rfl
    · rw [Store.complete_of_erase erase slabs jobs]
    · rw [Store.leave_of_erase _ erase slabs]
      simp only [Nat.zero_add]
      rfl
  · rw [launchWrite_of_waiting idle waits, writeTime_eq]

end Sys2Proof.Proofs

/-! PROOF. The host link: frames received whole (O25) and the phases of a transaction (O24). -/
namespace Sys2Proof.Machine

open Sys2Proof Sys2Proof.Safety

section HostLink
variable {s : State} {kind taken : Nat} {body : List Byte}

/-! ### A frame received whole -/

/-- R169: whether a frame fitted as its length byte arrived, in the queue's limits. -/
theorem fitsAtLength_iff (size since : Nat) (h : HostLink) : fitsAtLength size since h = true ↔
    h.inbound.length + (h.taken.take since).length + 1 ≤ 12 ∧
      (h.inbound.map inboundSize).sum + (h.taken.take since).sum + size ≤ 384 := by
  simp [fitsAtLength]

theorem fitsAtLength_eq_false_iff (size since : Nat) (h : HostLink) : fitsAtLength size since h = false ↔
    ¬ (h.inbound.length + (h.taken.take since).length + 1 ≤ 12 ∧
      (h.inbound.map inboundSize).sum + (h.taken.take since).sum + size ≤ 384) := by
  rw [← fitsAtLength_iff, Bool.not_eq_true]

theorem inboundEntry_of_known (known : isCommandKind kind = true ∧ body.length ≤ 60) :
    inboundEntry kind body = .frame kind body := if_pos (by simp [known])

theorem inboundEntry_of_unknown (unknown : ¬ (isCommandKind kind = true ∧ body.length ≤ 60)) :
    inboundEntry kind body = .malformed kind := if_neg (by simpa using unknown)

theorem exec_inboundFrame_starting (write : s.host.phase = .write) (starting : s.host.startingUp = true) (taken : Nat) :
    exec (.inboundFrame kind body taken) s =
      .next { s with host := { s.host with shiftOut := List.replicate (2 + body.length) 0xFF#8, taken := [] } } := by
  have whole : exec (.inboundFrame kind body taken) s = execInboundFrame kind body taken s := rfl
  rw [whole, execInboundFrame, if_pos write]
  exact congrArg (fun t => Host.Outcome.next (clearTaken t)) (if_pos starting)

/-- R169: a frame received after start-up is placed as it fitted. -/
theorem exec_inboundFrame_placed (write : s.host.phase = .write) (started : s.host.startingUp = false) :
    exec (.inboundFrame kind body taken) s =
      .next (clearTaken (placeInbound (inboundEntry kind body) taken (shift (filler (2 + body.length)) s))) := by
  have whole : exec (.inboundFrame kind body taken) s = execInboundFrame kind body taken s := rfl
  rw [whole, execInboundFrame, if_pos write]
  exact congrArg (fun t => Host.Outcome.next (clearTaken t)) (if_neg (by simp [started]))

theorem placeInbound_of_fits {e : Inbound} (fits : fitsAtLength (inboundSize e) taken s.host = true) :
    placeInbound e taken s = { s with host := { s.host with inbound := s.host.inbound ++ [e] } } := if_pos fits

theorem placeInbound_of_full {e : Inbound} (full : fitsAtLength (inboundSize e) taken s.host = false) :
    placeInbound e taken s = { s with host := { s.host with overflow := true } } := if_neg (by simp [full])

/-- R170: an entry answered BAD FRAME as it is taken. -/
theorem exec_malformedFrame {e : Inbound} {rest : List Inbound} (room : roomToAnswer s)
    (head : s.host.inbound = e :: rest) (bad : badFrameKind e = some kind) :
    exec .malformedFrame s = .next (refusedBy kind .badFrame s) := by
  have whole : exec .malformedFrame s = execMalformedFrame s := rfl
  rw [whole, execMalformedFrame, head]
  simp only [List.head?_cons, Option.bind_some, bad, (commandRoom_iff s).mpr room, if_true,
    refuse_popInbound kind .badFrame room]

end HostLink

end Sys2Proof.Machine

namespace Sys2Proof.Proofs

open Sys2Proof Sys2Proof.Machine Sys2Proof.Safety

/-- Settles O25: what a frame is placed as, and whether it fitted as its length byte arrived. -/
theorem inboundFramesArePlacedOrCounted : Obligations.InboundFramesArePlacedOrCounted := by
  intro s kind body shifted known
  refine ⟨fun write starting taken => exec_inboundFrame_starting write starting taken, fun write started taken => ?_,
    fun rest room bad => ?_⟩
  · intro fits
    rw [exec_inboundFrame_placed write started]
    have placed (e : Inbound) (fit : fits (inboundSize e)) :
        clearTaken (placeInbound e taken (shift (filler (2 + body.length)) s)) =
          { s with host := { shifted with inbound := s.host.inbound ++ [e] } } := by
      have fitted : fitsAtLength (inboundSize e) taken (shift (filler (2 + body.length)) s).host = true :=
        (fitsAtLength_iff ..).mpr fit
      rw [placeInbound_of_fits fitted]
      rfl
    have dropped (e : Inbound) (full : ¬ fits (inboundSize e)) :
        clearTaken (placeInbound e taken (shift (filler (2 + body.length)) s)) =
          { s with host := { shifted with overflow := true } } := by
      have overflows : fitsAtLength (inboundSize e) taken (shift (filler (2 + body.length)) s).host = false :=
        (fitsAtLength_eq_false_iff ..).mpr full
      rw [placeInbound_of_full overflows]
      rfl
    refine ⟨fun good fit => ?_, fun unknown fit => ?_, ?_⟩
    · rw [inboundEntry_of_known good, placed (.frame kind body) fit]
    · rw [inboundEntry_of_unknown unknown, placed (.malformed kind) fit]
    · rintro (⟨good, full⟩ | ⟨unknown, full⟩)
      · rw [inboundEntry_of_known good, dropped (.frame kind body) full]
      · rw [inboundEntry_of_unknown unknown, dropped (.malformed kind) full]
  · obtain head | ⟨head, undecoded⟩ := bad
    · exact exec_malformedFrame room head rfl
    · exact exec_malformedFrame room head (by simp [badFrameKind, undecoded])

end Sys2Proof.Proofs

/-! PROOF. The phases of a host transaction and what they shift out (O24). -/
namespace Sys2Proof.Machine

open Sys2Proof Sys2Proof.Safety

section Transaction
variable {s : State} {cut : CutFrame}

theorem attentionLow_iff (s : State) : s.attentionLow = true ↔ s.host.outbound ≠ [] := by
  simp [State.attentionLow]

/-- R168: the status byte, flag by flag. -/
theorem statusByte_eq (s : State) : s.statusByte =
    (if s.host.startingUp then 0 else 12 - s.host.inbound.length + (if s.host.outbound = [] then 0 else 16))
      + (if s.host.overflow then 32 else 0) + (if s.active.fault.isSome then 64 else 0) := by
  have pending : bitIf (!s.host.startingUp && s.attentionLow) 16 =
      if s.host.startingUp then 0 else if s.host.outbound = [] then 0 else 16 := by
    cases starting : s.host.startingUp <;> cases waits : s.host.outbound <;> simp [State.attentionLow, waits, bitIf]
  rw [State.statusByte, pending, State.freeInbound, bitIf, bitIf]
  split
  · rfl
  · rfl

/-! ### The events of a transaction -/

theorem exec_transactionStart_of_idle (idle : s.host.phase = .idle) : exec .transactionStart s =
    .next { s with host := { s.host with
      phase := .write, shiftOut := [u8 s.statusByte], emptyRead := false, taken := [] } } :=
  congrArg Host.Outcome.next (if_pos idle)

theorem exec_readMarker_of_write (write : s.host.phase = .write) : exec .readMarker s =
    .next { s with host := { s.host with
      phase := .read, emptyRead := decide (s.host.outbound = [])
      shiftOut := 0xFF#8 :: (if s.host.outbound = [] then [0, 0] else []) } } := by
  refine congrArg Host.Outcome.next ((if_pos write).trans ?_)
  cases s.host.outbound with
  | nil => rfl
  | cons f rest => rfl

theorem exec_frameReadBegun_of_read (read : s.host.phase = .read) :
    exec .frameReadBegun s = .next (shiftHead 1 s) := congrArg Host.Outcome.next (if_pos read)

theorem exec_outboundFrameRead_of_read (read : s.host.phase = .read) :
    exec .outboundFrameRead s = .next (shiftNext s) := congrArg Host.Outcome.next (if_pos read)

/-- Log entry 44: in a spent transaction an event shifts out filler. -/
theorem shiftSpent_of_spent (spent : s.host.phase = .spent) (n : Nat) :
    shiftSpent n s = { s with host := { s.host with shiftOut := List.replicate n 0xFF#8 } } := if_pos spent

theorem exec_read_of_spent {c : Instr} (event : c = .readMarker ∨ c = .frameReadBegun ∨ c = .outboundFrameRead)
    (spent : s.host.phase = .spent) : exec c s = .next { s with host := { s.host with shiftOut := [0xFF#8] } } := by
  have filled := congrArg (Host.Outcome.next (φ := Fault) (ρ := Refusal)) (shiftSpent_of_spent spent 1)
  obtain rfl | rfl | rfl := event
  · exact (congrArg Host.Outcome.next (if_neg (by simp [spent]))).trans filled
  · exact (congrArg Host.Outcome.next (if_neg (by simp [spent]))).trans filled
  · exact (congrArg Host.Outcome.next (if_neg (by simp [spent]))).trans filled

theorem exec_inboundFrame_of_spent (kind : Nat) (body : List Byte) (taken : Nat) (spent : s.host.phase = .spent) :
    exec (.inboundFrame kind body taken) s =
      .next { s with host := { s.host with shiftOut := List.replicate (2 + body.length) 0xFF#8 } } :=
  congrArg Host.Outcome.next ((if_neg (by simp [spent])).trans (shiftSpent_of_spent spent _))

theorem exec_startUpEnd_of_starting (starting : s.host.startingUp = true) : exec .startUpEnd s =
    .next { s with host := { s.host with startingUp := false, inbound := [], outbound := [] } } :=
  congrArg Host.Outcome.next (if_pos starting)

/-- R174: the first bytes of the frame at the head shifted out, and not its last. -/
theorem shiftHead_of_within {f : Outbound} {rest : List Outbound} {n : Nat} (head : s.host.outbound = f :: rest)
    (some : 0 < n) (short : n < 2 + f.report.body.length) : shiftHead n s = { s with host := { s.host with
      outbound := { f with begun := true } :: rest
      shiftOut := ([u8 f.report.kind, u8 f.report.body.length] ++ f.report.body).take n } } := by
  rw [shiftHead, head]
  exact if_pos ⟨some, short⟩

/-- Log entry 4: a reading of no frame, of none of its bytes, or of all of them. -/
theorem shiftHead_of_none {n : Nat}
    (none : n = 0 ∨ ∀ f, s.host.outbound.head? = some f → 2 + f.report.body.length ≤ n) : shiftHead n s = s := by
  unfold shiftHead
  split
  · rfl
  · next f head =>
    refine if_neg fun ⟨pos, short⟩ => ?_
    obtain zero | whole := none
    · omega
    · exact absurd (whole f head) (Nat.not_le.mpr short)

theorem shiftNext_of_cons {f : Outbound} {rest : List Outbound} (head : s.host.outbound = f :: rest) :
    shiftNext s = { s with host := { s.host with
      outbound := rest, emptyRead := false
      shiftOut := [u8 f.report.kind, u8 f.report.body.length] ++ f.report.body } } := by
  rw [shiftNext, head]
  rfl

theorem shiftNext_of_nil (empty : s.host.outbound = []) : shiftNext s = { s with host := { s.host with
    emptyRead := true, shiftOut := if s.host.emptyRead then [0xFF#8] else [0, 0] } } := by
  rw [shiftNext, empty]
  rfl

/-! ### Select going inactive -/

/-- R168: the transaction ends. -/
def closeLink (s : State) : State := { s with host := { s.host with phase := .idle } }

theorem exec_selectInactive_of_idle (idle : s.host.phase = .idle) :
    exec (.selectInactive cut) s = .next (closeLink s) := by
  have whole : exec (.selectInactive cut) s = execSelectInactive cut s := rfl
  rw [whole, execSelectInactive, idle]
  rfl

theorem exec_selectInactive_of_write (write : s.host.phase = .write) : exec (.selectInactive cut) s =
    .next (closeLink (shiftCut cut (if s.host.startingUp then s else cutShort cut s))) := by
  have whole : exec (.selectInactive cut) s = execSelectInactive cut s := rfl
  rw [whole, execSelectInactive, write]
  rfl

theorem exec_selectInactive_of_read (read : s.host.phase = .read) :
    exec (.selectInactive cut) s = .next (closeLink (cutReading cut s)) := by
  have whole : exec (.selectInactive cut) s = execSelectInactive cut s := rfl
  rw [whole, execSelectInactive, read]
  rfl

theorem exec_selectInactive_of_spent (spent : s.host.phase = .spent) :
    exec (.selectInactive cut) s = .next (closeLink (shiftCut cut s)) := by
  have whole : exec (.selectInactive cut) s = execSelectInactive cut s := rfl
  rw [whole, execSelectInactive, spent]
  rfl

/-- R168, log entry 4: a cut in which no byte of a command frame had come in does nothing in the write phase. -/
theorem shiftCut_of_none (none : bytesArrived cut = 0) : shiftCut cut s = s := if_pos none

theorem cutShort_of_none (none : bytesArrived cut = 0) : cutShort cut s = s := by
  cases cut with
  | none => rfl
  | beforeLength => exact absurd none Nat.one_ne_zero
  | afterLength kind length taken body =>
    refine if_neg fun short => ?_
    rw [bytesArrived, if_pos short] at none
    omega
  | reading n => rfl

theorem shiftCut_afterLength {kind length taken body : Nat} (short : body < length) (s : State) :
    shiftCut (.afterLength kind length taken body) s =
      { s with host := { s.host with shiftOut := List.replicate (2 + body) 0xFF#8 } } := by
  have arrived : bytesArrived (.afterLength kind length taken body) = 2 + body := if_pos short
  rw [shiftCut, arrived, if_neg (by omega)]
  rfl

/-- R168: select going inactive with nothing begun: the phase alone changes. -/
theorem exec_selectInactive_of_nothing
    (written : s.host.phase = .write ∨ s.host.phase = .spent → bytesArrived cut = 0)
    (reading : s.host.phase = .read → cutReading cut s = s) : exec (.selectInactive cut) s = .next (closeLink s) := by
  cases phase : s.host.phase with
  | idle => exact exec_selectInactive_of_idle phase
  | write =>
    have none := written (.inl phase)
    rw [exec_selectInactive_of_write phase, cutShort_of_none none, ite_self, shiftCut_of_none none]
  | read => rw [exec_selectInactive_of_read phase, reading phase]
  | spent => rw [exec_selectInactive_of_spent phase, shiftCut_of_none (written (.inr phase))]

/-- R168: a command frame cut short where nothing is counted: filler alone. -/
theorem exec_selectInactive_filler
    (uncounted : s.host.phase = .spent ∨ (s.host.phase = .write ∧ s.host.startingUp = true)) :
    exec (.selectInactive cut) s = .next (closeLink (shiftCut cut s)) := by
  obtain spent | ⟨write, starting⟩ := uncounted
  · exact exec_selectInactive_of_spent spent
  · rw [exec_selectInactive_of_write write, if_pos starting]

theorem exec_selectInactive_counted (write : s.host.phase = .write) (started : s.host.startingUp = false) :
    exec (.selectInactive cut) s = .next (closeLink (shiftCut cut (cutShort cut s))) := by
  rw [exec_selectInactive_of_write write, if_neg (by simp [started])]

/-- R169: the size a frame of a kind and length byte would have taken. -/
theorem arrivingSize_eq (kind length : Nat) : arrivingSize kind length =
    if isCommandKind kind = true ∧ length ≤ 60 then 2 + length else 2 := by
  simp [arrivingSize]

end Transaction

end Sys2Proof.Machine

namespace Sys2Proof.Proofs

open Sys2Proof Sys2Proof.Machine Sys2Proof.Safety

/-- Settles O24: each event of a transaction by its phase. -/
theorem transactionsMoveTheHostLinkAlone : Obligations.TransactionsMoveTheHostLinkAlone := by
  intro s cut filled ended
  refine ⟨attentionLow_iff s, fun idle => ?_, exec_readMarker_of_write, fun read empty => ⟨?_, ?_⟩,
    fun f rest read head => ⟨?_, fun n some short => ?_, ?_⟩,
    fun spent => ⟨fun c event => exec_read_of_spent event spent, fun kind body taken =>
      exec_inboundFrame_of_spent kind body taken spent⟩, exec_startUpEnd_of_starting, fun cut nothing => ?_,
    fun uncounted => ⟨exec_selectInactive_filler uncounted, fun kind length taken body short => ?_⟩,
    fun write started => ⟨exec_selectInactive_counted write started, fun kind length taken body short => ?_⟩⟩
  · rw [exec_transactionStart_of_idle idle, statusByte_eq]
  · rw [exec_frameReadBegun_of_read read, shiftHead_of_none (.inr (by simp [empty]))]
  · rw [exec_outboundFrameRead_of_read read, shiftNext_of_nil empty]
  · rw [exec_frameReadBegun_of_read read, shiftHead_of_within head Nat.one_pos (by omega)]
    rfl
  · rw [exec_selectInactive_of_read read, cutReading, shiftHead_of_within head some short]
    rfl
  · rw [exec_outboundFrameRead_of_read read, shiftNext_of_cons head]
  · obtain idle | rfl | ⟨kind, length, taken, body, rfl, read | whole⟩ | ⟨rfl, read⟩ | ⟨n, rfl, nothing⟩ := nothing
    · exact exec_selectInactive_of_idle idle
    · exact exec_selectInactive_of_nothing (fun _ => rfl) fun _ => rfl
    · exact exec_selectInactive_of_read read
    · exact exec_selectInactive_of_nothing (fun _ => if_neg (by omega)) fun _ => rfl
    · exact exec_selectInactive_of_read read
    · exact exec_selectInactive_of_nothing (fun _ => rfl) fun read =>
        shiftHead_of_none (nothing.resolve_left (absurd read))
  · rw [exec_selectInactive_filler uncounted, shiftCut_afterLength short]
    rfl
  · intro size
    rw [exec_selectInactive_counted write started, shiftCut_afterLength short, cutShort, if_pos short]
    rw [arrivingSize_eq]
    refine ⟨fun fits => ?_, fun full => ?_⟩
    · rw [(fitsAtLength_iff ..).mpr fits, Bool.not_true, Bool.or_false]
      rfl
    · rw [(fitsAtLength_eq_false_iff ..).mpr full, Bool.not_false, Bool.or_true]
      rfl

end Sys2Proof.Proofs

/-! PROOF. The layouts of the frames and notices the part sends, field by field, and the admission of reports (O26). -/
namespace Sys2Proof.Machine

open Sys2Proof Sys2Proof.Safety

/-! ### Fields -/

@[simp] theorem fieldBytes_one (n : Nat) : fieldBytes (1, n) = [u8 n] := by simp [fieldBytes, List.range_succ, u8]

@[simp] theorem fieldBytes_two (n : Nat) : fieldBytes (2, n) = le16 n := by
  simp [fieldBytes, List.range_succ, le16, u8]

@[simp] theorem fieldBytes_four (n : Nat) : fieldBytes (4, n) = le32 n := by
  simp [fieldBytes, List.range_succ, le32, u8]

@[simp] theorem fieldBytes_signed (v : Int) : fieldBytes (signedField v) = le16s v := fieldBytes_two _

@[simp] theorem fieldBytes_index (o : Option Nat) : fieldBytes (indexField o) = [optByte o] := fieldBytes_one _

@[simp] theorem flagAt_eq (bit : Nat) (b : Bool) : flagAt bit b = bitIf b (2 ^ bit) := rfl

/-! ### Codes -/

@[simp] theorem reasonCode_eq (r : Reason) : reasonCode r = r.code := by cases r with | _ => rfl
@[simp] theorem causeCode_eq (c : Cause) : causeCode c = c.code := by cases c with | _ => rfl
@[simp] theorem slabStateCode_eq (st : SlabState) : slabStateCode st = st.code := by cases st with | _ => rfl
@[simp] theorem itemCode_eq (k : ItemKind) : itemCode k = k.code := by cases k with | _ => rfl

theorem orderKindCode_eq (k : OrderKind) : (if k = .resume then 1 else 0) = k.code := by cases k with | _ => rfl

theorem claimResultCode_eq (r : ClaimResult) :
    [ClaimResult.granted, .heldElsewhere, .claimLost, .lineNoisy, .muted].idxOf r = r.code := by cases r with | _ => rfl

theorem attachCode_eq (a : Attach) : [Attach.inert, .listening, .active, .muted].idxOf a = a.code := by
  cases a with | _ => rfl

theorem purgeStateCode_eq (p : PurgeState) :
    [PurgeState.idle, .wantPress, .purging, .retryWait].idxOf p = p.code := by cases p with | _ => rfl

theorem presenceCode_eq (p : Presence) : [Presence.absent, .present, .lapsed].idxOf p = p.code := by
  cases p with | _ => rfl

theorem lineFaultCode_eq (c : LineFaultCause) :
    1 + [LineFaultCause.retriesExhausted, .stuckLine, .duplicateStation].idxOf c = c.code := by cases c with | _ => rfl

/-! ### The parts of a body -/

theorem Defect.bytes_layout (d : Defect) : d.bytes = (defectFields d).flatMap fieldBytes := by
  obtain ⟨kind, x, y, w, h⟩ := d
  cases kind with
  | _ => simp [Defect.bytes, defectFields]

theorem defects_layout (ds : List Defect) : ds.flatMap Defect.bytes = (ds.flatMap defectFields).flatMap fieldBytes := by
  rw [List.flatMap_assoc]
  exact List.flatMap_congr fun d _ => Defect.bytes_layout d

theorem contentsHead_bytes (id : Nat) (c : SlabContents) : contentsBytes id c =
    (contentsHead id c).flatMap fieldBytes ++ c.defects.flatMap Defect.bytes := by
  simp [contentsBytes, contentsHead, Nat.mul_comm]

theorem contentsBytes_layout (id : Nat) (c : SlabContents) :
    contentsBytes id c = (contentsHead id c ++ c.defects.flatMap defectFields).flatMap fieldBytes := by
  rw [contentsHead_bytes, defects_layout, List.flatMap_append]

theorem contentsBytes_take (id : Nat) (c : SlabContents) :
    (contentsBytes id c).take 12 = (contentsHead id c).flatMap fieldBytes := by
  rw [contentsHead_bytes]
  exact List.take_left' (by simp [contentsHead, le16_length])

theorem FaultRecord.bytes_layout (r : FaultRecord) : r.bytes = (faultFields r).flatMap fieldBytes := by
  obtain ⟨cls, cause, prior, plan, segment, kind, reached, origin⟩ := r
  have causes : prior.elim 0 causeCode = prior.elim 0 Cause.code := by
    cases prior with
    | none => rfl
    | some c => exact causeCode_eq c
  cases cls with
  | _ => cases origin with
    | _ => simp [FaultRecord.bytes, faultFields, orderKindCode_eq, causes]

theorem Trap.layout (t : Trap) : t.code = (trapFields t).1 ∧ t.fields = (trapFields t).2.flatMap fieldBytes := by
  cases t with
  | lineFault cause kind => simp [Trap.code, Trap.fields, trapFields, lineFaultCode_eq]
  | _ => simp [Trap.code, Trap.fields, trapFields]

theorem shareLines_layout (ls : List ShareLine) : ls.flatMap ShareLine.bytes =
    (ls.flatMap fun l => [(2, l.job), (4, l.area), (4, l.cents)]).flatMap fieldBytes := by
  rw [List.flatMap_assoc]
  exact List.flatMap_congr fun l _ => by simp [ShareLine.bytes]

theorem Accepted.bytes_layout (a : Accepted) : a.bytes = (acceptedFields a).flatMap fieldBytes := by
  cases a with
  | settlement first ls =>
    cases first with
    | _ => simp [Accepted.bytes, acceptedFields, shareLines_layout]
  | _ => simp [Accepted.bytes, acceptedFields]

theorem Pending.byte_layout (p : Pending) : [u8 p.byte] = fieldBytes (pendingField p) := by
  simp [Pending.byte, pendingField]

theorem PeerEntry.bytes_layout (e : PeerEntry) : e.bytes = (peerFields e).flatMap fieldBytes := by
  obtain ⟨unused, presence, busy, demand, heard, fingerprint⟩ := e
  cases fingerprint with
  | _ => simp [PeerEntry.bytes, peerFields, presenceCode_eq]

theorem peerEntries_layout (es : List PeerEntry) :
    es.flatMap PeerEntry.bytes = (es.flatMap peerFields).flatMap fieldBytes := by
  rw [List.flatMap_assoc]
  exact List.flatMap_congr fun e _ => PeerEntry.bytes_layout e

theorem StationView.bytes_layout (v : StationView) : v.bytes = (viewFields v).flatMap fieldBytes := by
  simp [StationView.bytes, viewFields, attachCode_eq, purgeStateCode_eq]

theorem Rejection.bytes_layout (w : Rejection) : [u8 0] ++ le16 plan ++ [u8 1] ++ w.bytes =
    (reportFields (.planRejected plan w)).2.flatMap fieldBytes := by
  obtain ⟨check, item, index, partner, coordinate, defect⟩ := w
  cases partner with
  | _ => cases coordinate with
    | _ => simp [Rejection.bytes, reportFields, bitIf, le16s]

/-- R186, 12: every report frame's kind and body. -/
theorem Report.layout (r : Report) : r.kind = (reportFields r).1 ∧ r.body = (reportFields r).2.flatMap fieldBytes := by
  cases r with
  | accepted command fields =>
    exact ⟨rfl, by simp [Report.body, reportFields, Accepted.bytes_layout]⟩
  | slabRecordHead r => exact ⟨rfl, by simp [Report.body, reportFields, contentsBytes_take]⟩
  | slabRecordTail id defects => exact ⟨rfl, by simp [Report.body, reportFields, defects_layout]⟩
  | slabList entries more =>
    exact ⟨rfl, by simp [Report.body, reportFields, List.flatMap_assoc]⟩
  | claimResult slab job result station polls => exact ⟨rfl, by simp [Report.body, reportFields, claimResultCode_eq]⟩
  | planRejected plan w => exact ⟨rfl, Rejection.bytes_layout w⟩
  | planStale plan slab cause =>
    refine ⟨rfl, ?_⟩
    cases cause with
    | _ => simp [Report.body, reportFields]
  | segmentOrder o bevel => exact ⟨rfl, by simp [Report.body, reportFields, orderKindCode_eq, bitIf]⟩
  | planComplete plan slab remnants actual lines =>
    exact ⟨rfl, by simp [Report.body, reportFields, List.flatMap_map]⟩
  | planAborted record nextSeg charged actual =>
    exact ⟨rfl, by simp [Report.body, reportFields, FaultRecord.bytes_layout]⟩
  | trap what plan segment => exact ⟨rfl, by simp [Report.body, reportFields, what.layout]⟩
  | fault record pending =>
    exact ⟨rfl, by simp [Report.body, reportFields, FaultRecord.bytes_layout, Pending.byte_layout]⟩
  | jobHead j => exact ⟨rfl, by simp [Report.body, reportFields, JobRecord.reportFlags]⟩
  | peerView first entries =>
    exact ⟨rfl, by simp [Report.body, reportFields, peerEntries_layout]⟩
  | stationView v => exact ⟨rfl, StationView.bytes_layout v⟩
  | _ => exact ⟨rfl, by simp [Report.body, reportFields]⟩

/-! ### Order frames -/

section OrderFrame
variable {r : Report} {s : State} {tag : Nat}

/-- R71: an order frame takes 20 bytes at most. -/
theorem order_size_le (order : r.isOrder = true) : 2 + r.body.length ≤ 20 := by
  cases r with
  | segmentOrder o bevel => simp [Report.body, le16s, le16_length]
  | feedUpdate tag segment feed water => simp [Report.body, le16_length]
  | holdOrder tag segment => simp [Report.body]
  | stopOrder tag segment => simp [Report.body]
  | _ => exact nomatch order

theorem isUnreadUpdate_iff (tag : Nat) (f : Outbound) :
    isUnreadUpdate tag f = true ↔ f.begun = false ∧ f.report.updateTag = some tag := by
  simp [isUnreadUpdate]

/-- R71: the first unread update frame of the tag is the one replaced. -/
theorem replaceUpdate_of_first {before after : List Outbound} {f : Outbound} (unread : isUnreadUpdate tag f = true)
    (first : ∀ x ∈ before, ¬ isUnreadUpdate tag x = true) :
    replaceUpdate r tag (before ++ f :: after) = before ++ ⟨r, false⟩ :: after := by
  induction before with
  | nil => exact if_pos unread
  | cons x rest ih =>
    rw [List.forall_mem_cons] at first
    rw [List.cons_append, replaceUpdate, if_neg first.1, ih first.2, List.cons_append]

/-- R71: an order frame within the reserve is admitted. -/
theorem orderFrame_of_room {q : List Outbound} (leads : withOrderFrame r s.host.outbound = q) (frames : q.length ≤ 20)
    (bytes : heldBytes q ≤ 768) : orderFrame r s = { s with host := { s.host with outbound := q } } := by
  simp only [orderFrame, leads]
  exact if_pos ⟨frames, bytes⟩

theorem orderFrame_replaces {before after : List Outbound} {f : Outbound} (update : r.updateTag = some tag)
    (queue : s.host.outbound = before ++ f :: after) (unread : isUnreadUpdate tag f = true)
    (first : ∀ x ∈ before, ¬ isUnreadUpdate tag x = true) (frames : s.host.outbound.length ≤ 19)
    (bytes : heldBytes s.host.outbound + 2 + r.body.length ≤ 768) :
    orderFrame r s = { s with host := { s.host with outbound := before ++ ⟨r, false⟩ :: after } } := by
  refine orderFrame_of_room ?_ ?_ ?_
  · have waits : s.host.outbound.any (isUnreadUpdate tag) = true :=
      List.any_eq_true.mpr ⟨f, by simp [queue], unread⟩
    rw [withOrderFrame, update]
    simp only [waits, if_true]
    rw [queue, replaceUpdate_of_first unread first]
  · rw [queue] at frames
    simp only [List.length_append, List.length_cons] at frames ⊢
    omega
  · rw [queue] at bytes
    simp only [heldBytes, List.map_append, List.map_cons, List.sum_append, List.sum_cons, Report.size] at bytes ⊢
    omega

theorem orderFrame_appends (none : ∀ tag, r.updateTag = some tag → ∀ x ∈ s.host.outbound, ¬ isUnreadUpdate tag x = true)
    (frames : s.host.outbound.length ≤ 19) (bytes : heldBytes s.host.outbound + 2 + r.body.length ≤ 768) :
    orderFrame r s = { s with host := { s.host with outbound := s.host.outbound ++ [⟨r, false⟩] } } := by
  refine orderFrame_of_room ?_ ?_ ?_
  · unfold withOrderFrame
    split
    · next tag update => exact if_neg (by simpa using none tag update)
    · rfl
  · rw [List.length_append, List.length_singleton]
    omega
  · have held : heldBytes (s.host.outbound ++ [⟨r, false⟩]) = heldBytes s.host.outbound + (2 + r.body.length) :=
      heldBytes_append_one ..
    omega

end OrderFrame

end Sys2Proof.Machine

namespace Sys2Proof.Proofs

open Sys2Proof Sys2Proof.Machine Sys2Proof.Safety

/-- Settles O26: the layouts field by field, the general room's limits, and the place an order frame takes. -/
theorem reportsAreAdmittedOrCounted : Obligations.ReportsAreAdmittedOrCounted := by
  refine ⟨Report.layout, fun r s => ⟨fun frames bytes => ?_, fun full => ?_⟩, fun r => order_size_le,
    fun o bevel tag segment feed water => ⟨rfl, rfl, rfl, rfl⟩, fun r s frames bytes => ?_⟩
  · exact report_admitted ((admits_iff r s).mpr ⟨by omega, by rw [Report.size]; omega⟩)
  · refine report_dropped (Bool.eq_false_iff.mpr fun room => ?_)
    obtain ⟨frames, bytes⟩ := (admits_iff r s).mp room
    rw [Report.size] at bytes
    omega
  · intro unread
    have iff (tag : Nat) (f : Outbound) : isUnreadUpdate tag f = true ↔ unread tag f := isUnreadUpdate_iff tag f
    refine ⟨fun tag before f after update queue mine first => ?_, fun none => ?_⟩
    · exact orderFrame_replaces update queue ((iff tag f).mpr mine) (fun x mem => (iff tag x).not.mpr (first x mem))
        frames bytes
    · exact orderFrame_appends (fun tag update x mem => (iff tag x).not.mpr (none tag update x mem)) frames bytes

end Sys2Proof.Proofs

/-! PROOF. Floor notices put on the line and read off it (O4). -/
namespace Sys2Proof.Machine

open Sys2Proof Sys2Proof.Safety

/-! ### Bits on the line -/

/-- 12: a field of bits that stands before another. -/
theorem bitsOf_append (a b x : Nat) {y : Nat} (low : y < 2 ^ b) :
    bitsOf (a + b) (2 ^ b * x + y) = bitsOf a x ++ bitsOf b y := by
  have high (i : Nat) (h : i ∈ List.range a) : (2 ^ b * x + y).testBit (a + b - 1 - i) = x.testBit (a - 1 - i) := by
    have lt := List.mem_range.mp h
    rw [Nat.testBit_two_pow_mul_add _ low, if_neg (by omega)]
    congr 1
    omega
  have rest (i : Nat) (h : i ∈ List.range b) : (2 ^ b * x + y).testBit (a + b - 1 - (a + i)) = y.testBit (b - 1 - i) := by
    have lt := List.mem_range.mp h
    rw [Nat.testBit_two_pow_mul_add _ low, if_pos (by omega)]
    congr 1
    omega
  rw [bitsOf, List.range_add, List.map_append, List.map_map, List.map_congr_left high]
  exact congrArg (bitsOf a x ++ ·) (List.map_congr_left rest)

/-- 12: a byte's bits are those of its value. -/
theorem byteBits_eq (b : Byte) : byteBits b = bitsOf 8 b.toNat := rfl

theorem byteBits_u8 {n : Nat} (small : n < 256) : byteBits (u8 n) = bitsOf 8 n := by
  rw [byteBits_eq, u8_toNat, Nat.mod_eq_of_lt small]

/-- 12: sixteen bits in two bytes, high bit first. -/
theorem bytes_bits {n : Nat} (small : n < 65536) : [u8 (n / 256), u8 n].flatMap byteBits = bitsOf 16 n := by
  have split : bitsOf 16 n = bitsOf 8 (n / 256) ++ bitsOf 8 (n % 256) := by
    rw [← bitsOf_append 8 8 (n / 256) (y := n % 256) (by omega)]
    congr 1
    omega
  have low : u8 n = u8 (n % 256) := BitVec.eq_of_toNat_eq (by rw [u8_toNat, u8_toNat, Nat.mod_mod])
  rw [split, low, List.flatMap_cons, List.flatMap_cons, List.flatMap_nil, List.append_nil,
    byteBits_u8 (by omega), byteBits_u8 (by omega)]

/-- R154: the precedence and the length, bit by bit. -/
theorem headerBits {kind station length : Nat} (k : kind < 16) (st : station < 32) (l : length < 128) :
    (headerBytes kind station length).flatMap byteBits = bitsOf 4 kind ++ bitsOf 5 station ++ bitsOf 7 length := by
  rw [← bitsOf_append 4 5 kind (y := station) (by omega), ← bitsOf_append (4 + 5) 7 _ (y := length) (by omega),
    headerBytes, bytes_bits (by omega)]
  congr 1
  omega

/-! ### The cyclic check, bit by bit -/

theorem checkOf_bits (bs : List Byte) : checkOf bs = (bs.flatMap byteBits).foldl checkBit 0xFFFF#16 := by
  rw [checkOf, checkFrom_eq_foldl, List.foldl_flatMap]
  rfl

/-- R186: one covered bit, the register's high bit compared with it. -/
theorem checkBit_eq (r : BitVec 16) (bit : Bool) :
    checkBit r bit = if r.msb = bit then r <<< 1 else r <<< 1 ^^^ 0x1021#16 := by
  simp only [checkBit, bne_iff_ne, ne_eq, ite_not]

theorem checkBit_fun :
    checkBit = fun (r : BitVec 16) bit => if r.msb = bit then r <<< 1 else r <<< 1 ^^^ 0x1021#16 :=
  funext fun r => funext fun bit => checkBit_eq r bit

/-- R155: a notice's kind and body. -/
theorem Notice.layout (n : Notice) : n.kind = (noticeFields n).1 ∧ n.body = (noticeFields n).2.flatMap fieldBytes := by
  cases n with
  | slab id c => exact ⟨rfl, contentsBytes_layout id c⟩
  | _ => exact ⟨rfl, by simp [Notice.body, noticeFields]⟩

theorem Notice.kind_lt (n : Notice) : n.kind < 16 := by
  cases n with
  | _ => simp [Notice.kind]

/-! ### A notice read off the line -/

section Read
variable {body : List Byte}

/-- R155: a notice of a peer with its check and of the right length. -/
def whole (kind station : Nat) (body : List Byte) : RawNotice :=
  ⟨kind, station, body.length, body, noticeCheck kind station body.length body⟩

/-- R155: the row of a valid notice, by its kind. -/
def validRow (n : RawNotice) : Instr :=
  match n.kind with
  | 1 => .pollReceived n.station (u16At n.body 0)
  | 2 => .claimReceived n.station (u16At n.body 0) (u16At n.body 2)
  | 3 => .releaseReceived n.station (u16At n.body 0)
  | 4 => .demandReceived n.station (byteAt n.body 0)
  | 5 => .retireReceived n.station (u16At n.body 0) (byteAt n.body 2)
  | 6 => .slabReceived n.station (contentsOfBytes n.body).1 (contentsOfBytes n.body).2
  | 7 => .helloReceived n.station (u16At n.body 0) (byteAt n.body 2) (byteAt n.body 3)
  | _ => .formatError n.kind n.station (u16At n.body 0)

/-- R155: a notice with a good check, of a sender's number and of its kind's length, is its own row. -/
theorem decodeNotice_whole {kind station : Nat} (sender : station < 31) (named : kind ≠ 0) (short : body.length ≤ 64)
    (fits : lengthFits kind body = true) : decodeNotice (whole kind station body) = validRow (whole kind station body) := by
  have unstuck : ¬ ((whole kind station body).kind = 0 ∧ (whole kind station body).station = 0) := fun h => named h.1
  have inStep : ¬ 64 < (whole kind station body).length := Nat.not_lt.mpr short
  have format : ¬ ((whole kind station body).station = 31 ∨
      lengthFits (whole kind station body).kind (whole kind station body).body = false) := by
    rintro (far | bad)
    · exact absurd far (Nat.ne_of_lt sender)
    · exact nomatch fits.symm.trans bad
  rw [decodeNotice, if_neg unstuck, if_neg inStep, if_neg (fun bad => bad rfl), if_neg format]
  rfl

theorem slab_lengthFits (id : Nat) {c : SlabContents} (few : c.defects.length ≤ 6) :
    lengthFits 6 (contentsBytes id c) = true := by
  have count : byteAt (contentsBytes id c) 2 / 16 % 8 = c.defects.length := by
    have byte : byteAt (contentsBytes id c) 2 = (c.cls % 8 + 16 * (c.defects.length % 8)) % 256 := by
      have cells (a b : Nat) : [u8 a, u8 b] = [u8 a] ++ [u8 b] := rfl
      simp only [contentsBytes, cells, List.append_assoc, byteAt_append_right, le16_length, le_refl, Nat.sub_self,
        byteAt_u8]
    omega
  simp only [lengthFits, count, contentsBytes_length, few, decide_true, beq_self_eq_true, Bool.and_self]

theorem u16At_le16_alone {n : Nat} (small : n < 65536) : u16At (le16 n) 0 = n := by
  rw [← List.append_nil (le16 n), u16At_le16, Nat.mod_eq_of_lt small]

theorem u16At_le16_first {n : Nat} (small : n < 65536) (rest : List Byte) : u16At (le16 n ++ rest) 0 = n := by
  rw [u16At_le16, Nat.mod_eq_of_lt small]

/-- R155: a notice on the line is read as its row. -/
theorem decodeNotice_encodeNotice {c : Instr} {n : RawNotice} (wf : c.wellFormed = true)
    (encoded : encodeNotice c = some n) : decodeNotice n = c := by
  cases c with
  | pollReceived k r =>
    obtain rfl : whole 1 k (le16 r) = n := Option.some.inj encoded
    simp only [Instr.wellFormed, Bool.and_eq_true, decide_eq_true_eq] at wf
    obtain ⟨sender, r16⟩ := wf
    rw [decodeNotice_whole sender (by decide) (by simp [le16_length]) (by simp [lengthFits, le16_length])]
    simp only [validRow, whole, u16At_le16_alone r16]
  | claimReceived k r job =>
    obtain rfl : whole 2 k (le16 r ++ le16 job) = n := Option.some.inj encoded
    simp only [Instr.wellFormed, Bool.and_eq_true, decide_eq_true_eq] at wf
    obtain ⟨⟨sender, r16⟩, job16⟩ := wf
    rw [decodeNotice_whole sender (by decide) (by simp [le16_length]) (by simp [lengthFits, le16_length])]
    simp only [validRow, whole, u16At_le16_first r16, u16At_append_right, le16_length, le_refl, Nat.sub_self,
      u16At_le16_alone job16]
  | releaseReceived k r =>
    obtain rfl : whole 3 k (le16 r) = n := Option.some.inj encoded
    simp only [Instr.wellFormed, Bool.and_eq_true, decide_eq_true_eq] at wf
    obtain ⟨sender, r16⟩ := wf
    rw [decodeNotice_whole sender (by decide) (by simp [le16_length]) (by simp [lengthFits, le16_length])]
    simp only [validRow, whole, u16At_le16_alone r16]
  | demandReceived k d =>
    obtain rfl : whole 4 k [u8 d] = n := Option.some.inj encoded
    simp only [Instr.wellFormed, Bool.and_eq_true, decide_eq_true_eq] at wf
    obtain ⟨sender, d8⟩ := wf
    rw [decodeNotice_whole sender (by decide) (by simp) (by simp [lengthFits])]
    have demand : byteAt [u8 d] 0 = d := (byteAt_u8 d []).trans (Nat.mod_eq_of_lt d8)
    simp only [validRow, whole, demand]
  | retireReceived k slab reason =>
    obtain rfl : whole 5 k (le16 slab ++ [u8 reason]) = n := Option.some.inj encoded
    simp only [Instr.wellFormed, Bool.and_eq_true, decide_eq_true_eq] at wf
    obtain ⟨⟨sender, slab16⟩, reason8⟩ := wf
    rw [decodeNotice_whole sender (by decide) (by simp [le16_length]) (by simp [lengthFits, le16_length])]
    have why : byteAt [u8 reason] 0 = reason := (byteAt_u8 reason []).trans (Nat.mod_eq_of_lt reason8)
    simp only [validRow, whole, u16At_le16_first slab16, byteAt_append_right, le16_length, le_refl, Nat.sub_self, why]
  | slabReceived k slab contents =>
    obtain rfl : whole 6 k (contentsBytes slab contents) = n := Option.some.inj encoded
    simp only [Instr.wellFormed, Bool.and_eq_true, decide_eq_true_eq] at wf
    obtain ⟨⟨sender, slab16⟩, held⟩ := wf
    obtain ⟨-, -, -, -, -, -, few, -⟩ := (contents_wellFormed_iff contents).mp held
    have read := contentsOfBytes_contentsBytes slab16 held []
    rw [List.append_nil] at read
    rw [decodeNotice_whole sender (by decide) (by rw [contentsBytes_length]; omega) (slab_lengthFits slab few)]
    simp only [validRow, whole, read]
  | helloReceived k supply rate press =>
    obtain rfl : whole 7 k (le16 supply ++ [u8 rate, u8 press]) = n := Option.some.inj encoded
    simp only [Instr.wellFormed, Bool.and_eq_true, decide_eq_true_eq] at wf
    obtain ⟨⟨⟨sender, supply16⟩, rate8⟩, press8⟩ := wf
    rw [decodeNotice_whole sender (by decide) (by simp [le16_length]) (by simp [lengthFits, le16_length])]
    have first : byteAt [u8 rate, u8 press] 0 = rate := (byteAt_u8 rate [u8 press]).trans (Nat.mod_eq_of_lt rate8)
    have second : byteAt [u8 rate, u8 press] 1 = press := (byteAt_u8 press []).trans (Nat.mod_eq_of_lt press8)
    simp only [validRow, whole, u16At_le16_first supply16, byteAt_append_right, le16_length, le_refl, Nat.reduceLeDiff,
      Nat.reduceSub, first, second]
  | _ => exact nomatch encoded

end Read

/-- R154, R186: a notice's bits from its start bit through its check. -/
theorem lineBits_eq {station : Nat} (n : Notice) (own : station ≤ 30) (short : n.body.length ≤ 127) :
    let covered := bitsOf 4 (noticeFields n).1 ++ bitsOf 5 station ++ bitsOf 7 n.body.length ++
      n.body.flatMap fun b => bitsOf 8 b.toNat
    let check := covered.foldl (fun (r : BitVec 16) bit => if r.msb = bit then r <<< 1 else r <<< 1 ^^^ 0x1021#16)
      0xFFFF#16
    n.lineBits station = false :: (covered ++ bitsOf 16 check.toNat) := by
  intro covered check
  have kind := n.kind_lt
  have bits : (headerBytes n.kind station n.body.length ++ n.body).flatMap byteBits = covered := by
    rw [List.flatMap_append, headerBits kind (by omega) (by omega), n.layout.1]
    rfl
  have checked : noticeCheck n.kind station n.body.length n.body = check := by
    rw [noticeCheck, checkOf_bits, bits, checkBit_fun]
  rw [Notice.lineBits, checked]
  rw [List.flatMap_append, bits, bytes_bits check.isLt]

end Sys2Proof.Machine

namespace Sys2Proof.Proofs

open Sys2Proof Sys2Proof.Machine Sys2Proof.Safety

/-- Settles O4: each field of a notice read at its offset, and its bits field by field. -/
theorem noticeRoundTrip : Obligations.NoticeRoundTrip :=
  ⟨fun _ _ wf encoded => decodeNotice_encodeNotice wf encoded, fun _ n own short =>
    ⟨(Notice.layout n).1, (Notice.layout n).2, lineBits_eq n own short⟩⟩

end Sys2Proof.Proofs

/-! PROOF. The lists and blocks a host frame carries, encoded and parsed (O3). -/
namespace Sys2Proof.Machine

open Sys2Proof Sys2Proof.Safety

/-! ### Defects -/

theorem defectOf_bytes {xk : Nat} (small : xk < 65536) (y w h : Nat) :
    (defectOf xk y w h).bytes = le16 xk ++ le16 y ++ le16 w ++ le16 h := by
  by_cases low : xk < 32768
  · have whole : xk % 32768 % 32768 + 0 = xk := by omega
    simp only [Defect.bytes, defectOf, if_pos low, whole]
  · have whole : xk % 32768 % 32768 + 32768 = xk := by omega
    simp only [Defect.bytes, defectOf, if_neg low, whole]

theorem parseDefects_cons {d : Defect} (wf : d.wellFormed = true) (rest : List Byte) :
    parseDefects (d.bytes ++ rest) = (parseDefects rest).map (d :: ·) := by
  have head : parseDefects (d.bytes ++ rest) = (parseDefects rest).map (defectAt (d.bytes ++ rest) 0 :: ·) := rfl
  rw [head, defectAt_bytes wf]

theorem parseDefects_flatMap {ds : List Defect} (wf : ∀ d ∈ ds, d.wellFormed = true) :
    parseDefects (ds.flatMap Defect.bytes) = some ds := by
  induction ds with
  | nil => rfl
  | cons d rest ih =>
    rw [List.forall_mem_cons] at wf
    rw [List.flatMap_cons, parseDefects_cons wf.1, ih wf.2, Option.map_some]

theorem bytes_of_parseDefects {bs : List Byte} {ds : List Defect} (parsed : parseDefects bs = some ds) :
    ds.flatMap Defect.bytes = bs := by
  induction bs using parseDefects.induct generalizing ds with
  | case1 =>
    obtain rfl := Option.some.inj parsed
    rfl
  | case2 a b c d e f g h rest ih =>
    obtain ⟨tail, more, rfl⟩ := Option.map_eq_some_iff.mp parsed
    simp only [List.flatMap_cons, ih more, defectOf_bytes (get16_lt a b), le16_get16, List.cons_append, List.nil_append]
  | case3 bs notNil notLong => simp [parseDefects] at parsed

/-! ### Pieces, rectangles and segments -/

theorem parsePieces_cons {p : PieceEntry} (wf : p.wellFormed = true) (rest : List Byte) :
    parsePieces (p.bytes ++ rest) = (parsePieces rest).map (p :: ·) := by
  obtain ⟨job, x, y, w, h⟩ := p
  simp only [PieceEntry.wellFormed, Rect.wellFormed, isU16, Bool.and_eq_true, decide_eq_true_eq] at wf
  obtain ⟨job16, ⟨⟨x16, y16⟩, w16⟩, h16⟩ := wf
  simp only [PieceEntry.bytes, Rect.bytes, le16, List.cons_append, List.nil_append, parsePieces, get16_u8 job16,
    get16_u8 x16, get16_u8 y16, get16_u8 w16, get16_u8 h16]

theorem parsePieces_flatMap {ps : List PieceEntry} (wf : ∀ p ∈ ps, p.wellFormed = true) :
    parsePieces (ps.flatMap PieceEntry.bytes) = some ps := by
  induction ps with
  | nil => rfl
  | cons p rest ih =>
    rw [List.forall_mem_cons] at wf
    rw [List.flatMap_cons, parsePieces_cons wf.1, ih wf.2, Option.map_some]

theorem bytes_of_parsePieces {bs : List Byte} {ps : List PieceEntry} (parsed : parsePieces bs = some ps) :
    ps.flatMap PieceEntry.bytes = bs := by
  induction bs using parsePieces.induct generalizing ps with
  | case1 =>
    obtain rfl := Option.some.inj parsed
    rfl
  | case2 i j a b c d e f g h rest ih =>
    obtain ⟨tail, more, rfl⟩ := Option.map_eq_some_iff.mp parsed
    simp only [List.flatMap_cons, ih more, PieceEntry.bytes, Rect.bytes, le16_get16, List.cons_append, List.nil_append]
  | case3 bs notNil notLong => simp [parsePieces] at parsed

theorem parseRects_cons {r : Rect} (wf : r.wellFormed = true) (rest : List Byte) :
    parseRects (r.bytes ++ rest) = (parseRects rest).map (r :: ·) := by
  obtain ⟨x, y, w, h⟩ := r
  simp only [Rect.wellFormed, isU16, Bool.and_eq_true, decide_eq_true_eq] at wf
  obtain ⟨⟨⟨x16, y16⟩, w16⟩, h16⟩ := wf
  simp only [Rect.bytes, le16, List.cons_append, List.nil_append, parseRects, get16_u8 x16, get16_u8 y16, get16_u8 w16,
    get16_u8 h16]

theorem parseRects_flatMap {rs : List Rect} (wf : ∀ r ∈ rs, r.wellFormed = true) :
    parseRects (rs.flatMap Rect.bytes) = some rs := by
  induction rs with
  | nil => rfl
  | cons r rest ih =>
    rw [List.forall_mem_cons] at wf
    rw [List.flatMap_cons, parseRects_cons wf.1, ih wf.2, Option.map_some]

theorem bytes_of_parseRects {bs : List Byte} {rs : List Rect} (parsed : parseRects bs = some rs) :
    rs.flatMap Rect.bytes = bs := by
  induction bs using parseRects.induct generalizing rs with
  | case1 =>
    obtain rfl := Option.some.inj parsed
    rfl
  | case2 a b c d e f g h rest ih =>
    obtain ⟨tail, more, rfl⟩ := Option.map_eq_some_iff.mp parsed
    simp only [List.flatMap_cons, ih more, Rect.bytes, le16_get16, List.cons_append, List.nil_append]
  | case3 bs notNil notLong => simp [parseRects] at parsed

theorem parseSegments_cons {e : SegmentEntry} (wf : e.wellFormed = true) (rest : List Byte) :
    parseSegments (e.bytes ++ rest) = (parseSegments rest).map (e :: ·) := by
  obtain ⟨startX, startY, endX, endY, mode, piece⟩ := e
  simp only [SegmentEntry.wellFormed, isI16, isU8, Bool.and_eq_true, decide_eq_true_eq] at wf
  obtain ⟨⟨⟨⟨⟨⟨lowX, highX⟩, lowY, highY⟩, lowEndX, highEndX⟩, lowEndY, highEndY⟩, mode8⟩, piece8⟩ := wf
  simp only [SegmentEntry.bytes, le16s, le16, List.cons_append, List.nil_append, parseSegments, get16s_u8 lowX highX,
    get16s_u8 lowY highY, get16s_u8 lowEndX highEndX, get16s_u8 lowEndY highEndY, u8_toNat_of_lt mode8,
    u8_toNat_of_lt piece8]

theorem parseSegments_flatMap {es : List SegmentEntry} (wf : ∀ e ∈ es, e.wellFormed = true) :
    parseSegments (es.flatMap SegmentEntry.bytes) = some es := by
  induction es with
  | nil => rfl
  | cons e rest ih =>
    rw [List.forall_mem_cons] at wf
    rw [List.flatMap_cons, parseSegments_cons wf.1, ih wf.2, Option.map_some]

theorem bytes_of_parseSegments {bs : List Byte} {es : List SegmentEntry} (parsed : parseSegments bs = some es) :
    es.flatMap SegmentEntry.bytes = bs := by
  induction bs using parseSegments.induct generalizing es with
  | case1 =>
    obtain rfl := Option.some.inj parsed
    rfl
  | case2 a b c d e f g h m p rest ih =>
    obtain ⟨tail, more, rfl⟩ := Option.map_eq_some_iff.mp parsed
    simp only [List.flatMap_cons, ih more, SegmentEntry.bytes, le16s_get16s, u8_of_toNat, List.cons_append,
      List.nil_append]
  | case3 bs notNil notLong => simp [parseSegments] at parsed

/-- The bytes of a list of entries of one size. -/
theorem length_flatMap_of_const {α : Type} {f : α → List Byte} {n : Nat} (size : ∀ x, (f x).length = n) (xs : List α) :
    (xs.flatMap f).length = n * xs.length := by
  simp [List.length_flatMap, size, Nat.mul_comm]

theorem piece_length (p : PieceEntry) : p.bytes.length = 10 := by simp [PieceEntry.bytes, Rect.bytes, le16_length]

theorem rect_length (r : Rect) : r.bytes.length = 8 := by simp [Rect.bytes, le16_length]

theorem segment_length (e : SegmentEntry) : e.bytes.length = 10 := by simp [SegmentEntry.bytes, le16s, le16_length]

/-! ### The configuration block's fields -/

theorem config_length {c : ConfigFields} (hardness : c.hardness.length = 8) : c.bytes.length = 46 := by
  simp [ConfigFields.bytes, le16_length, le32_length, hardness]

theorem hardness_read {hs : List Nat} (eight : hs.length = 8) (small : ∀ n ∈ hs, n < 256) {head : List Byte}
    (offset : head.length = 11) (rest : List Byte) :
    (List.range 8).map (fun i => byteAt (head ++ (hs.map u8 ++ rest)) (11 + i)) = hs := by
  refine List.ext_getElem (by simp [eight]) fun i _ within => ?_
  have place : 11 + i - head.length = i := by omega
  rw [List.getElem_map, List.getElem_range, byteAt_append_right (by omega), place,
    byteAt_append_left (by simpa using within), byteAt, List.getD_eq_getElem _ _ (by simpa using within),
    List.getElem_map, u8_toNat_of_lt (small _ (List.getElem_mem _))]

/-- 12: the fields of a block stand at their offsets. -/
theorem configOfBytes_bytes {c : ConfigFields} (wf : c.wellFormed = true) (rest : List Byte) :
    configOfBytes (c.bytes ++ rest) = c := by
  simp only [ConfigFields.wellFormed, isU8, isU16, isU32, Bool.and_eq_true, decide_eq_true_eq, beq_iff_eq,
    List.all_eq_true] at wf
  obtain ⟨⟨⟨⟨⟨⟨⟨⟨⟨⟨⟨⟨⟨⟨⟨⟨⟨⟨⟨⟨⟨⟨⟨rate, supply⟩, f0⟩, fmin⟩, fmax⟩, overcut⟩, kerf⟩, eight⟩, hardness⟩, qnom⟩, qmin⟩,
    machineRate⟩, priceRecycled⟩, priceFresh⟩, priceWear⟩, priceDisposal⟩, makeup⟩, freshLimit⟩, margin⟩, guard⟩,
    threshold⟩, hardLimit⟩, press⟩, purgeTime⟩ := wf
  have hardLength : (c.hardness.map u8).length = 8 := by rw [List.length_map, eight]
  have head : ([u8 c.rate] ++ (le16 c.supply ++ (le16 c.f0 ++ (le16 c.fmin ++ (le16 c.fmax ++
      ([u8 c.overcut] ++ [u8 c.kerf])))))).length = 11 := by simp [le16_length]
  have body : c.bytes ++ rest = ([u8 c.rate] ++ (le16 c.supply ++ (le16 c.f0 ++ (le16 c.fmin ++ (le16 c.fmax ++
      ([u8 c.overcut] ++ [u8 c.kerf])))))) ++ (c.hardness.map u8 ++ ([u8 c.qnom] ++ ([u8 c.qmin] ++
      (le16 c.machineRate ++ (le16 c.priceRecycled ++ (le16 c.priceFresh ++ (le16 c.priceWear ++
      (le16 c.priceDisposal ++ ([u8 c.makeup] ++ ([u8 c.freshLimit] ++ ([u8 c.margin] ++ ([u8 c.guard] ++
      (le32 c.threshold ++ (le32 c.hardLimit ++ ([u8 c.press] ++ (le16 c.purgeTime ++ rest)))))))))))))))) := by
    simp [ConfigFields.bytes]
  have hard : (List.range 8).map (fun i => byteAt (c.bytes ++ rest) (11 + i)) = c.hardness := by
    rw [body]
    exact hardness_read eight hardness head _
  rw [configOfBytes, hard, body]
  simp only [List.append_assoc, byteAt_append_right, u16At_append_right, u32At_append_right,
    le16_length, le32_length, hardLength, List.length_singleton, byteAt_u8, u16At_le16, u32At_le32, Nat.reduceLeDiff,
    Nat.reduceSub, le_refl, Nat.sub_self, Nat.mod_eq_of_lt rate, Nat.mod_eq_of_lt supply, Nat.mod_eq_of_lt f0,
    Nat.mod_eq_of_lt fmin, Nat.mod_eq_of_lt fmax, Nat.mod_eq_of_lt overcut, Nat.mod_eq_of_lt kerf,
    Nat.mod_eq_of_lt qnom, Nat.mod_eq_of_lt qmin, Nat.mod_eq_of_lt machineRate, Nat.mod_eq_of_lt priceRecycled,
    Nat.mod_eq_of_lt priceFresh, Nat.mod_eq_of_lt priceWear, Nat.mod_eq_of_lt priceDisposal, Nat.mod_eq_of_lt makeup,
    Nat.mod_eq_of_lt freshLimit, Nat.mod_eq_of_lt margin, Nat.mod_eq_of_lt guard, Nat.mod_eq_of_lt threshold,
    Nat.mod_eq_of_lt hardLimit, Nat.mod_eq_of_lt press, Nat.mod_eq_of_lt purgeTime]

theorem bytes_configOfBytes {bs : List Byte} (long : bs.length = 46) : (configOfBytes bs).bytes = bs := by
  have b (i : Nat) : u8 (byteAt bs i) = bs.getD i 0 := u8_of_toNat _
  have w (i : Nat) : le16 (u16At bs i) = [bs.getD i 0, bs.getD (i + 1) 0] := le16_get16 ..
  have l (i : Nat) : le32 (u32At bs i) = [bs.getD i 0, bs.getD (i + 1) 0, bs.getD (i + 2) 0, bs.getD (i + 3) 0] := by
    rw [u32At_eq, le32_get32]
  have all : (configOfBytes bs).bytes = (List.range 46).map (bs.getD · 0) := by
    simp only [ConfigFields.bytes, configOfBytes, b, w, l, List.map_map, Function.comp_def]
    rfl
  rw [all]
  refine List.ext_getElem (by simp [long]) fun i _ within => ?_
  rw [List.getElem_map, List.getElem_range, List.getD_eq_getElem _ _ within]

end Sys2Proof.Machine

/-! PROOF. Host command frames decoded and encoded (O3). -/
namespace Sys2Proof.Machine

open Sys2Proof Sys2Proof.Safety

section Commands
variable {c : Instr} {straps kind : Nat} {body : List Byte}

/-! ### The command a frame spells, kind by kind -/

theorem decode_enterSlab (n t w0 w1 h0 h1 p0 p1 k : Byte) (rest : List Byte) :
    decodeCommand straps 0x01 (n :: t :: w0 :: w1 :: h0 :: h1 :: p0 :: p1 :: k :: rest) =
      if rest.length = 8 * k.toNat then
        (parseDefects rest).map (.enterSlab n.toNat t.toNat (get16 w0 w1) (get16 h0 h1) (get16 p0 p1) ·)
      else none := rfl

theorem decode_planPieces (n : Byte) (rest : List Byte) : decodeCommand straps 0x07 (n :: rest) =
    if rest.length = 10 * n.toNat then (parsePieces rest).map .planPieces else none := rfl

theorem decode_planRemnants (n : Byte) (rest : List Byte) : decodeCommand straps 0x08 (n :: rest) =
    if rest.length = 8 * n.toNat then (parseRects rest).map .planRemnants else none := rfl

theorem decode_planSegments (bs : List Byte) :
    decodeCommand straps 0x09 bs = (parseSegments bs).map .planSegments := rfl

theorem decode_writeConfig (bs : List Byte) : decodeCommand straps 0x1C bs =
    if bs.length = 46 then some (.writeConfig (configOfBytes bs)) else none := rfl

theorem decode_segmentFault (t k a b c d : Byte) : decodeCommand straps 0x11 [t, k, a, b, c, d] =
    some (.segmentFault t.toNat k.toNat (get16 a b) (get16 c d)) := rfl

theorem decode_closeSlab (a b m c d : Byte) : decodeCommand straps 0x12 [a, b, m, c, d] =
    some (.closeSlab (get16 a b) m.toNat (get16 c d)) := rfl

theorem decode_openJob (a b : Byte) : decodeCommand straps 0x13 [a, b] =
    some (.openJob (get16 a b) none) := rfl

theorem decode_openJob_estimate (a b c d e f : Byte) : decodeCommand straps 0x13 [a, b, c, d, e, f] =
    some (.openJob (get16 a b) (some (get32 c d e f))) := rfl

theorem decode_setStation (a b n : Byte) : decodeCommand straps 0x1B [a, b, n] =
    some (.setStation a.toNat b.toNat n.toNat) := rfl

theorem decode_writeCalibration (a b : Byte) : decodeCommand straps 0x1D [a, b] =
    some (.writeCalibration a.toNat b.toNat) := rfl

/-! ### A well-formed command's frame -/

/-- R170: a frame that keeps a frame's limits and decodes to a command. -/
def spells (kind : Nat) (body : List Byte) (c : Instr) : Prop :=
  isCommandKind kind = true ∧ body.length ≤ 60 ∧ ∀ straps, decodeCommand straps kind body = some c

theorem spells_enterSlab {cls thickness width height price : Nat} {ds : List Defect}
    (wf : (Instr.enterSlab cls thickness width height price ds).wellFormed = true) :
    spells 0x01 ([u8 cls, u8 thickness] ++ le16 width ++ le16 height ++ le16 price ++ [u8 ds.length] ++
      ds.flatMap Defect.bytes) (.enterSlab cls thickness width height price ds) := by
  simp only [Instr.wellFormed, isU8, isU16, Bool.and_eq_true, decide_eq_true_eq, List.all_eq_true] at wf
  obtain ⟨⟨⟨⟨⟨⟨cls8, thickness8⟩, width16⟩, height16⟩, price16⟩, few⟩, fits⟩ := wf
  have long := defects_length ds
  have count : (u8 ds.length).toNat = ds.length := u8_toNat_of_lt (by omega)
  refine ⟨rfl, ?_, fun straps => ?_⟩
  · simp only [List.length_append, List.length_cons, List.length_nil, le16_length, long]
    omega
  · simp only [le16, List.cons_append, List.nil_append, decode_enterSlab, count, long, if_true,
      parseDefects_flatMap fits, Option.map_some, u8_toNat_of_lt cls8, u8_toNat_of_lt thickness8, get16_u8 width16,
      get16_u8 height16, get16_u8 price16]

theorem spells_planPieces {ps : List PieceEntry} (wf : (Instr.planPieces ps).wellFormed = true) :
    spells 0x07 ([u8 ps.length] ++ ps.flatMap PieceEntry.bytes) (.planPieces ps) := by
  simp only [Instr.wellFormed, Bool.and_eq_true, decide_eq_true_eq, List.all_eq_true] at wf
  obtain ⟨few, fits⟩ := wf
  have long := length_flatMap_of_const piece_length ps
  have count : (u8 ps.length).toNat = ps.length := u8_toNat_of_lt (by omega)
  refine ⟨rfl, ?_, fun straps => ?_⟩
  · simp only [List.length_append, List.length_singleton, long]
    omega
  · simp only [List.cons_append, List.nil_append, decode_planPieces, count, long, if_true, parsePieces_flatMap fits,
      Option.map_some]

theorem spells_planRemnants {rs : List Rect} (wf : (Instr.planRemnants rs).wellFormed = true) :
    spells 0x08 ([u8 rs.length] ++ rs.flatMap Rect.bytes) (.planRemnants rs) := by
  simp only [Instr.wellFormed, Bool.and_eq_true, decide_eq_true_eq, List.all_eq_true] at wf
  obtain ⟨few, fits⟩ := wf
  have long := length_flatMap_of_const rect_length rs
  have count : (u8 rs.length).toNat = rs.length := u8_toNat_of_lt (by omega)
  refine ⟨rfl, ?_, fun straps => ?_⟩
  · simp only [List.length_append, List.length_singleton, long]
    omega
  · simp only [List.cons_append, List.nil_append, decode_planRemnants, count, long, if_true, parseRects_flatMap fits,
      Option.map_some]

theorem spells_planSegments {es : List SegmentEntry} (wf : (Instr.planSegments es).wellFormed = true) :
    spells 0x09 (es.flatMap SegmentEntry.bytes) (.planSegments es) := by
  simp only [Instr.wellFormed, Bool.and_eq_true, decide_eq_true_eq, List.all_eq_true] at wf
  obtain ⟨few, fits⟩ := wf
  have long := length_flatMap_of_const segment_length es
  exact ⟨rfl, by omega, fun straps => by rw [decode_planSegments, parseSegments_flatMap fits, Option.map_some]⟩

theorem spells_writeConfig {fields : ConfigFields} (wf : fields.wellFormed = true) :
    spells 0x1C fields.bytes (.writeConfig fields) := by
  have eight : fields.hardness.length = 8 := by
    simp only [ConfigFields.wellFormed, Bool.and_eq_true, beq_iff_eq] at wf
    simp only [wf]
  have long := config_length eight
  have read := configOfBytes_bytes wf []
  rw [List.append_nil] at read
  exact ⟨rfl, by omega, fun straps => by rw [decode_writeConfig, if_pos long, read]⟩

theorem spells_openJob {job : Nat} {estimate : Option Nat} (wf : (Instr.openJob job estimate).wellFormed = true)
    (encoded : encodeCommand (.openJob job estimate) = some (kind, body)) :
    spells kind body (.openJob job estimate) := by
  cases estimate with
  | none =>
    obtain ⟨rfl, rfl⟩ := Prod.mk.inj (Option.some.inj encoded)
    simp only [Instr.wellFormed, isU16, Bool.and_eq_true, decide_eq_true_eq] at wf
    exact ⟨rfl, by simp [le16_length], fun straps => by rw [le16, decode_openJob, get16_u8 wf.1]⟩
  | some e =>
    obtain ⟨rfl, rfl⟩ := Prod.mk.inj (Option.some.inj encoded)
    simp only [Instr.wellFormed, isU16, isU32, Bool.and_eq_true, decide_eq_true_eq] at wf
    exact ⟨rfl, by simp [le16_length, le32_length], fun straps => by
      simp only [le16, le32, List.cons_append, List.nil_append, decode_openJob_estimate, get16_u8 wf.1, get32_u8 wf.2]⟩

/-- R170: the frame of a command that carries one two-byte number. -/
theorem spells_number {f : Nat → Instr} {n : Nat} (short : n < 65536) (host : isCommandKind kind = true)
    (decoded : ∀ straps a b, decodeCommand straps kind [a, b] = some (f (get16 a b))) : spells kind (le16 n) (f n) :=
  ⟨host, by simp [le16_length], fun straps => by rw [le16, decoded, get16_u8 short]⟩

/-- R170: the frame of a command that carries two two-byte numbers. -/
theorem spells_numbers {f : Nat → Nat → Instr} {n m : Nat} (short : n < 65536) (short' : m < 65536)
    (host : isCommandKind kind = true)
    (decoded : ∀ straps a b c d, decodeCommand straps kind [a, b, c, d] = some (f (get16 a b) (get16 c d))) :
    spells kind (le16 n ++ le16 m) (f n m) :=
  ⟨host, by simp [le16_length], fun straps => by
    simp only [le16, List.cons_append, List.nil_append, decoded, get16_u8 short, get16_u8 short']⟩

/-- R170: the frame of a segment report. -/
theorem spells_report {f : Nat → Nat → Nat → Instr} {tag length time : Nat} (tag8 : tag < 256)
    (length16 : length < 65536) (time16 : time < 65536) (host : isCommandKind kind = true)
    (decoded : ∀ straps t a b c d,
      decodeCommand straps kind [t, a, b, c, d] = some (f t.toNat (get16 a b) (get16 c d))) :
    spells kind ([u8 tag] ++ le16 length ++ le16 time) (f tag length time) :=
  ⟨host, by simp [le16_length], fun straps => by
    simp only [le16, List.cons_append, List.nil_append, decoded, u8_toNat_of_lt tag8, get16_u8 length16,
      get16_u8 time16]⟩

/-- R170: the frame of a command with no field. -/
theorem spells_bare (host : isCommandKind kind = true) (decoded : ∀ straps, decodeCommand straps kind [] = some c) :
    spells kind [] c := ⟨host, Nat.zero_le _, decoded⟩

/-- R170: the frame that spells a well-formed command, RESTART excepted. -/
theorem spells_of_encode (wf : c.wellFormed = true) (plain : ∀ k, c ≠ .restart k)
    (encoded : encodeCommand c = some (kind, body)) : spells kind body c := by
  cases c with
  | restart k => exact absurd rfl (plain k)
  | openJob job estimate => exact spells_openJob wf encoded
  | enterSlab cls thickness width height price ds =>
    obtain ⟨rfl, rfl⟩ := Prod.mk.inj (Option.some.inj encoded)
    exact spells_enterSlab wf
  | planPieces ps =>
    obtain ⟨rfl, rfl⟩ := Prod.mk.inj (Option.some.inj encoded)
    exact spells_planPieces wf
  | planRemnants rs =>
    obtain ⟨rfl, rfl⟩ := Prod.mk.inj (Option.some.inj encoded)
    exact spells_planRemnants wf
  | planSegments es =>
    obtain ⟨rfl, rfl⟩ := Prod.mk.inj (Option.some.inj encoded)
    exact spells_planSegments wf
  | writeConfig fields =>
    obtain ⟨rfl, rfl⟩ := Prod.mk.inj (Option.some.inj encoded)
    exact spells_writeConfig wf
  | readSlab n =>
    obtain ⟨rfl, rfl⟩ := Prod.mk.inj (Option.some.inj encoded)
    exact spells_number (f := .readSlab) (of_decide_eq_true wf) rfl fun _ _ _ => rfl
  | listSlabs n =>
    obtain ⟨rfl, rfl⟩ := Prod.mk.inj (Option.some.inj encoded)
    exact spells_number (f := .listSlabs) (of_decide_eq_true wf) rfl fun _ _ _ => rfl
  | give n =>
    obtain ⟨rfl, rfl⟩ := Prod.mk.inj (Option.some.inj encoded)
    exact spells_number (f := .give) (of_decide_eq_true wf) rfl fun _ _ _ => rfl
  | closeJob n =>
    obtain ⟨rfl, rfl⟩ := Prod.mk.inj (Option.some.inj encoded)
    exact spells_number (f := .closeJob) (of_decide_eq_true wf) rfl fun _ _ _ => rfl
  | freeJob n =>
    obtain ⟨rfl, rfl⟩ := Prod.mk.inj (Option.some.inj encoded)
    exact spells_number (f := .freeJob) (of_decide_eq_true wf) rfl fun _ _ _ => rfl
  | readJob n =>
    obtain ⟨rfl, rfl⟩ := Prod.mk.inj (Option.some.inj encoded)
    exact spells_number (f := .readJob) (of_decide_eq_true wf) rfl fun _ _ _ => rfl
  | take n m =>
    obtain ⟨rfl, rfl⟩ := Prod.mk.inj (Option.some.inj encoded)
    simp only [Instr.wellFormed, Bool.and_eq_true, decide_eq_true_eq] at wf
    exact spells_numbers (f := .take) wf.1 wf.2 rfl fun _ _ _ _ _ => rfl
  | planHead n m =>
    obtain ⟨rfl, rfl⟩ := Prod.mk.inj (Option.some.inj encoded)
    simp only [Instr.wellFormed, Bool.and_eq_true, decide_eq_true_eq] at wf
    exact spells_numbers (f := .planHead) wf.1 wf.2 rfl fun _ _ _ _ _ => rfl
  | segmentDone tag length time =>
    obtain ⟨rfl, rfl⟩ := Prod.mk.inj (Option.some.inj encoded)
    simp only [Instr.wellFormed, Bool.and_eq_true, decide_eq_true_eq] at wf
    obtain ⟨⟨tag8, length16⟩, time16⟩ := wf
    exact spells_report (f := .segmentDone) tag8 length16 time16 rfl fun _ _ _ _ _ _ => rfl
  | segmentPaused tag length time =>
    obtain ⟨rfl, rfl⟩ := Prod.mk.inj (Option.some.inj encoded)
    simp only [Instr.wellFormed, Bool.and_eq_true, decide_eq_true_eq] at wf
    obtain ⟨⟨tag8, length16⟩, time16⟩ := wf
    exact spells_report (f := .segmentPaused) tag8 length16 time16 rfl fun _ _ _ _ _ _ => rfl
  | segmentFault tag cause length time =>
    obtain ⟨rfl, rfl⟩ := Prod.mk.inj (Option.some.inj encoded)
    simp only [Instr.wellFormed, Bool.and_eq_true, decide_eq_true_eq] at wf
    obtain ⟨⟨⟨tag8, cause8⟩, length16⟩, time16⟩ := wf
    exact ⟨rfl, by simp [le16_length], fun straps => by
      simp only [le16, List.cons_append, List.nil_append, decode_segmentFault, u8_toNat_of_lt tag8,
        u8_toNat_of_lt cause8, get16_u8 length16, get16_u8 time16]⟩
  | closeSlab slab mode job =>
    obtain ⟨rfl, rfl⟩ := Prod.mk.inj (Option.some.inj encoded)
    simp only [Instr.wellFormed, Bool.and_eq_true, decide_eq_true_eq] at wf
    obtain ⟨⟨slab16, mode8⟩, job16⟩ := wf
    exact ⟨rfl, by simp [le16_length], fun straps => by
      simp only [le16, List.cons_append, List.nil_append, decode_closeSlab, get16_u8 slab16, u8_toNat_of_lt mode8,
        get16_u8 job16]⟩
  | setStation first second number =>
    obtain ⟨rfl, rfl⟩ := Prod.mk.inj (Option.some.inj encoded)
    simp only [Instr.wellFormed, Bool.and_eq_true, decide_eq_true_eq] at wf
    obtain ⟨⟨first8, second8⟩, number8⟩ := wf
    exact ⟨rfl, by simp, fun straps => by
      simp only [decode_setStation, u8_toNat_of_lt first8, u8_toNat_of_lt second8, u8_toNat_of_lt number8]⟩
  | writeCalibration kRecycled kFresh =>
    obtain ⟨rfl, rfl⟩ := Prod.mk.inj (Option.some.inj encoded)
    simp only [Instr.wellFormed, Bool.and_eq_true, decide_eq_true_eq] at wf
    obtain ⟨recycled8, fresh8⟩ := wf
    exact ⟨rfl, by simp, fun straps => by
      simp only [decode_writeCalibration, u8_toNat_of_lt recycled8, u8_toNat_of_lt fresh8]⟩
  | planEnd =>
    obtain ⟨rfl, rfl⟩ := Prod.mk.inj (Option.some.inj encoded)
    exact spells_bare rfl fun _ => rfl
  | dropPlan =>
    obtain ⟨rfl, rfl⟩ := Prod.mk.inj (Option.some.inj encoded)
    exact spells_bare rfl fun _ => rfl
  | startPlan =>
    obtain ⟨rfl, rfl⟩ := Prod.mk.inj (Option.some.inj encoded)
    exact spells_bare rfl fun _ => rfl
  | abortPlan =>
    obtain ⟨rfl, rfl⟩ := Prod.mk.inj (Option.some.inj encoded)
    exact spells_bare rfl fun _ => rfl
  | continuePlan =>
    obtain ⟨rfl, rfl⟩ := Prod.mk.inj (Option.some.inj encoded)
    exact spells_bare rfl fun _ => rfl
  | purgeNow =>
    obtain ⟨rfl, rfl⟩ := Prod.mk.inj (Option.some.inj encoded)
    exact spells_bare rfl fun _ => rfl
  | join =>
    obtain ⟨rfl, rfl⟩ := Prod.mk.inj (Option.some.inj encoded)
    exact spells_bare rfl fun _ => rfl
  | readStation =>
    obtain ⟨rfl, rfl⟩ := Prod.mk.inj (Option.some.inj encoded)
    exact spells_bare rfl fun _ => rfl
  | readPeers =>
    obtain ⟨rfl, rfl⟩ := Prod.mk.inj (Option.some.inj encoded)
    exact spells_bare rfl fun _ => rfl
  | storeErase =>
    obtain ⟨rfl, rfl⟩ := Prod.mk.inj (Option.some.inj encoded)
    exact spells_bare rfl fun _ => rfl
  | _ => exact nomatch encoded

/-! ### The one frame that spells a command -/

/-- R170: a kind whose frames have an empty body. -/
theorem encode_of_bare {d : Instr} (here : decodeCommand straps kind [] = some d)
    (more : ∀ a l, decodeCommand straps kind (a :: l) = none) (back : encodeCommand d = some (kind, []))
    (decoded : decodeCommand straps kind body = some c) : encodeCommand c = some (kind, body) := by
  match body, decoded with
  | [], decoded =>
    obtain rfl := Option.some.inj (here.symm.trans decoded)
    exact back
  | a :: l, decoded => exact nomatch (more a l).symm.trans decoded

/-- R170: a kind whose frames have a body of two bytes. -/
theorem encode_of_two {f : Byte → Byte → Instr} (here : ∀ a b, decodeCommand straps kind [a, b] = some (f a b))
    (empty : decodeCommand straps kind [] = none) (one : ∀ a, decodeCommand straps kind [a] = none)
    (more : ∀ a b d l, decodeCommand straps kind (a :: b :: d :: l) = none)
    (back : ∀ a b, encodeCommand (f a b) = some (kind, [a, b]))
    (decoded : decodeCommand straps kind body = some c) : encodeCommand c = some (kind, body) := by
  match body, decoded with
  | [a, b], decoded =>
    obtain rfl := Option.some.inj ((here a b).symm.trans decoded)
    exact back a b
  | [], decoded => exact nomatch empty.symm.trans decoded
  | [a], decoded => exact nomatch (one a).symm.trans decoded
  | a :: b :: d :: l, decoded => exact nomatch (more a b d l).symm.trans decoded

/-- R170: a kind whose frames have a body of four bytes. -/
theorem encode_of_four {f : Byte → Byte → Byte → Byte → Instr}
    (here : ∀ a b d e, decodeCommand straps kind [a, b, d, e] = some (f a b d e))
    (empty : decodeCommand straps kind [] = none) (one : ∀ a, decodeCommand straps kind [a] = none)
    (two : ∀ a b, decodeCommand straps kind [a, b] = none) (three : ∀ a b d, decodeCommand straps kind [a, b, d] = none)
    (more : ∀ a b d e g l, decodeCommand straps kind (a :: b :: d :: e :: g :: l) = none)
    (back : ∀ a b d e, encodeCommand (f a b d e) = some (kind, [a, b, d, e]))
    (decoded : decodeCommand straps kind body = some c) : encodeCommand c = some (kind, body) := by
  match body, decoded with
  | [a, b, d, e], decoded =>
    obtain rfl := Option.some.inj ((here a b d e).symm.trans decoded)
    exact back a b d e
  | [], decoded => exact nomatch empty.symm.trans decoded
  | [a], decoded => exact nomatch (one a).symm.trans decoded
  | [a, b], decoded => exact nomatch (two a b).symm.trans decoded
  | [a, b, d], decoded => exact nomatch (three a b d).symm.trans decoded
  | a :: b :: d :: e :: g :: l, decoded => exact nomatch (more a b d e g l).symm.trans decoded

/-- R170: a kind whose frames have a body of five bytes. -/
theorem encode_of_five {f : Byte → Byte → Byte → Byte → Byte → Instr}
    (here : ∀ a b d e g, decodeCommand straps kind [a, b, d, e, g] = some (f a b d e g))
    (empty : decodeCommand straps kind [] = none) (one : ∀ a, decodeCommand straps kind [a] = none)
    (two : ∀ a b, decodeCommand straps kind [a, b] = none) (three : ∀ a b d, decodeCommand straps kind [a, b, d] = none)
    (four : ∀ a b d e, decodeCommand straps kind [a, b, d, e] = none)
    (more : ∀ a b d e g h l, decodeCommand straps kind (a :: b :: d :: e :: g :: h :: l) = none)
    (back : ∀ a b d e g, encodeCommand (f a b d e g) = some (kind, [a, b, d, e, g]))
    (decoded : decodeCommand straps kind body = some c) : encodeCommand c = some (kind, body) := by
  match body, decoded with
  | [a, b, d, e, g], decoded =>
    obtain rfl := Option.some.inj ((here a b d e g).symm.trans decoded)
    exact back a b d e g
  | [], decoded => exact nomatch empty.symm.trans decoded
  | [a], decoded => exact nomatch (one a).symm.trans decoded
  | [a, b], decoded => exact nomatch (two a b).symm.trans decoded
  | [a, b, d], decoded => exact nomatch (three a b d).symm.trans decoded
  | [a, b, d, e], decoded => exact nomatch (four a b d e).symm.trans decoded
  | a :: b :: d :: e :: g :: h :: l, decoded => exact nomatch (more a b d e g h l).symm.trans decoded

theorem encode_number {f : Nat → Instr} (spelt : ∀ n, encodeCommand (f n) = some (kind, le16 n)) (a b : Byte) :
    encodeCommand (f (get16 a b)) = some (kind, [a, b]) := by rw [spelt, le16_get16]

theorem encode_numbers {f : Nat → Nat → Instr} (spelt : ∀ n m, encodeCommand (f n m) = some (kind, le16 n ++ le16 m))
    (a b d e : Byte) : encodeCommand (f (get16 a b) (get16 d e)) = some (kind, [a, b, d, e]) := by
  rw [spelt, le16_get16, le16_get16]
  rfl

theorem encode_report {f : Nat → Nat → Nat → Instr}
    (spelt : ∀ tag length time, encodeCommand (f tag length time) = some (kind, [u8 tag] ++ le16 length ++ le16 time))
    (t a b d e : Byte) : encodeCommand (f t.toNat (get16 a b) (get16 d e)) = some (kind, [t, a, b, d, e]) := by
  rw [spelt, le16_get16, le16_get16, u8_of_toNat]
  rfl

/-- R170: the count byte of a list is the one its length gives. -/
theorem countByte_eq {α : Type} {xs : List α} {n : Byte} {rest : List Byte} {f : α → List Byte} {size : Nat}
    (positive : 0 < size) (long : (xs.flatMap f).length = size * xs.length) (spelt : xs.flatMap f = rest)
    (counted : rest.length = size * n.toNat) : u8 xs.length = n := by
  have same : size * xs.length = size * n.toNat := by rw [← long, spelt, counted]
  rw [Nat.eq_of_mul_eq_mul_left positive same, u8_of_toNat]

theorem encode_of_enterSlab (decoded : decodeCommand straps 0x01 body = some c) :
    encodeCommand c = some (0x01, body) := by
  match body, decoded with
  | cls :: t :: w0 :: w1 :: h0 :: h1 :: p0 :: p1 :: n :: rest, decoded =>
    rw [decode_enterSlab] at decoded
    split at decoded
    · next counted =>
      obtain ⟨ds, parsed, rfl⟩ := Option.map_eq_some_iff.mp decoded
      have spelt := bytes_of_parseDefects parsed
      have count := countByte_eq (by decide) (defects_length ds) spelt counted
      simp only [encodeCommand, spelt, count, u8_of_toNat, le16_get16, List.cons_append, List.nil_append]
    · exact nomatch decoded
  | [], decoded => exact nomatch decoded
  | [_], decoded => exact nomatch decoded
  | [_, _], decoded => exact nomatch decoded
  | [_, _, _], decoded => exact nomatch decoded
  | [_, _, _, _], decoded => exact nomatch decoded
  | [_, _, _, _, _], decoded => exact nomatch decoded
  | [_, _, _, _, _, _], decoded => exact nomatch decoded
  | [_, _, _, _, _, _, _], decoded => exact nomatch decoded
  | [_, _, _, _, _, _, _, _], decoded => exact nomatch decoded

theorem encode_of_planPieces (decoded : decodeCommand straps 0x07 body = some c) :
    encodeCommand c = some (0x07, body) := by
  match body, decoded with
  | n :: rest, decoded =>
    rw [decode_planPieces] at decoded
    split at decoded
    · next counted =>
      obtain ⟨ps, parsed, rfl⟩ := Option.map_eq_some_iff.mp decoded
      have spelt := bytes_of_parsePieces parsed
      have count := countByte_eq (by decide) (length_flatMap_of_const piece_length ps) spelt counted
      simp only [encodeCommand, spelt, count, List.cons_append, List.nil_append]
    · exact nomatch decoded
  | [], decoded => exact nomatch decoded

theorem encode_of_planRemnants (decoded : decodeCommand straps 0x08 body = some c) :
    encodeCommand c = some (0x08, body) := by
  match body, decoded with
  | n :: rest, decoded =>
    rw [decode_planRemnants] at decoded
    split at decoded
    · next counted =>
      obtain ⟨rs, parsed, rfl⟩ := Option.map_eq_some_iff.mp decoded
      have spelt := bytes_of_parseRects parsed
      have count := countByte_eq (by decide) (length_flatMap_of_const rect_length rs) spelt counted
      simp only [encodeCommand, spelt, count, List.cons_append, List.nil_append]
    · exact nomatch decoded
  | [], decoded => exact nomatch decoded

theorem encode_of_planSegments (decoded : decodeCommand straps 0x09 body = some c) :
    encodeCommand c = some (0x09, body) := by
  obtain ⟨es, parsed, rfl⟩ := Option.map_eq_some_iff.mp decoded
  simp only [encodeCommand, bytes_of_parseSegments parsed]

theorem encode_of_writeConfig (decoded : decodeCommand straps 0x1C body = some c) :
    encodeCommand c = some (0x1C, body) := by
  rw [decode_writeConfig] at decoded
  split at decoded
  · next long =>
    obtain rfl := Option.some.inj decoded
    simp only [encodeCommand, bytes_configOfBytes long]
  · exact nomatch decoded

theorem encode_of_segmentFault (decoded : decodeCommand straps 0x11 body = some c) :
    encodeCommand c = some (0x11, body) := by
  match body, decoded with
  | [t, k, a, b, d, e], decoded =>
    obtain rfl := Option.some.inj decoded
    simp only [encodeCommand, u8_of_toNat, le16_get16, List.cons_append, List.nil_append]
  | [], decoded => exact nomatch decoded
  | [_], decoded => exact nomatch decoded
  | [_, _], decoded => exact nomatch decoded
  | [_, _, _], decoded => exact nomatch decoded
  | [_, _, _, _], decoded => exact nomatch decoded
  | [_, _, _, _, _], decoded => exact nomatch decoded
  | _ :: _ :: _ :: _ :: _ :: _ :: _ :: _, decoded => exact nomatch decoded

theorem encode_of_openJob (decoded : decodeCommand straps 0x13 body = some c) :
    encodeCommand c = some (0x13, body) := by
  match body, decoded with
  | [a, b], decoded =>
    obtain rfl := Option.some.inj decoded
    simp only [encodeCommand, le16_get16]
  | [a, b, d, e, g, h], decoded =>
    obtain rfl := Option.some.inj decoded
    simp only [encodeCommand, le16_get16, le32_get32, List.cons_append, List.nil_append]
  | [], decoded => exact nomatch decoded
  | [_], decoded => exact nomatch decoded
  | [_, _, _], decoded => exact nomatch decoded
  | [_, _, _, _], decoded => exact nomatch decoded
  | [_, _, _, _, _], decoded => exact nomatch decoded
  | _ :: _ :: _ :: _ :: _ :: _ :: _ :: _, decoded => exact nomatch decoded

theorem encode_of_setStation (decoded : decodeCommand straps 0x1B body = some c) :
    encodeCommand c = some (0x1B, body) := by
  match body, decoded with
  | [a, b, n], decoded =>
    obtain rfl := Option.some.inj decoded
    simp only [encodeCommand, u8_of_toNat]
  | [], decoded => exact nomatch decoded
  | [_], decoded => exact nomatch decoded
  | [_, _], decoded => exact nomatch decoded
  | _ :: _ :: _ :: _ :: _, decoded => exact nomatch decoded

theorem encode_of_closeSlab (decoded : decodeCommand straps 0x12 body = some c) :
    encodeCommand c = some (0x12, body) :=
  encode_of_five (fun _ _ _ _ _ => rfl) rfl (fun _ => rfl) (fun _ _ => rfl) (fun _ _ _ => rfl) (fun _ _ _ _ => rfl)
    (fun _ _ _ _ _ _ _ => rfl) (fun a b m d e => by
      simp only [encodeCommand, u8_of_toNat, le16_get16, List.cons_append, List.nil_append]) decoded

theorem encode_of_writeCalibration (decoded : decodeCommand straps 0x1D body = some c) :
    encodeCommand c = some (0x1D, body) :=
  encode_of_two (fun _ _ => rfl) rfl (fun _ => rfl) (fun _ _ _ _ => rfl)
    (fun a b => by simp only [encodeCommand, u8_of_toNat]) decoded

/-- R170: a kind of one two-byte number, by its equations. -/
theorem encode_of_number {f : Nat → Instr} (here : ∀ a b, decodeCommand straps kind [a, b] = some (f (get16 a b)))
    (empty : decodeCommand straps kind [] = none) (one : ∀ a, decodeCommand straps kind [a] = none)
    (more : ∀ a b d l, decodeCommand straps kind (a :: b :: d :: l) = none)
    (spelt : ∀ n, encodeCommand (f n) = some (kind, le16 n)) (decoded : decodeCommand straps kind body = some c) :
    encodeCommand c = some (kind, body) := encode_of_two here empty one more (encode_number spelt) decoded

/-- R170: a frame that decodes to a command is the one frame that spells it. -/
theorem encode_of_decode (decoded : decodeCommand straps kind body = some c) : encodeCommand c = some (kind, body) := by
  match kind, decoded with
  | 0, decoded => exact nomatch decoded
  | 0x01, decoded => exact encode_of_enterSlab decoded
  | 0x02, decoded =>
    exact encode_of_number (f := .readSlab) (fun _ _ => rfl) rfl (fun _ => rfl) (fun _ _ _ _ => rfl) (fun _ => rfl) decoded
  | 0x03, decoded =>
    exact encode_of_number (f := .listSlabs) (fun _ _ => rfl) rfl (fun _ => rfl) (fun _ _ _ _ => rfl) (fun _ => rfl) decoded
  | 0x04, decoded =>
    exact encode_of_four (fun _ _ _ _ => rfl) rfl (fun _ => rfl) (fun _ _ => rfl) (fun _ _ _ => rfl)
      (fun _ _ _ _ _ _ => rfl) (encode_numbers (f := .take) fun _ _ => rfl) decoded
  | 0x05, decoded =>
    exact encode_of_number (f := .give) (fun _ _ => rfl) rfl (fun _ => rfl) (fun _ _ _ _ => rfl) (fun _ => rfl) decoded
  | 0x06, decoded =>
    exact encode_of_four (fun _ _ _ _ => rfl) rfl (fun _ => rfl) (fun _ _ => rfl) (fun _ _ _ => rfl)
      (fun _ _ _ _ _ _ => rfl) (encode_numbers (f := .planHead) fun _ _ => rfl) decoded
  | 0x07, decoded => exact encode_of_planPieces decoded
  | 0x08, decoded => exact encode_of_planRemnants decoded
  | 0x09, decoded => exact encode_of_planSegments decoded
  | 0x0A, decoded => exact encode_of_bare rfl (fun _ _ => rfl) rfl decoded
  | 0x0B, decoded => exact encode_of_bare rfl (fun _ _ => rfl) rfl decoded
  | 0x0C, decoded => exact encode_of_bare rfl (fun _ _ => rfl) rfl decoded
  | 0x0D, decoded => exact encode_of_bare rfl (fun _ _ => rfl) rfl decoded
  | 0x0E, decoded => exact encode_of_bare rfl (fun _ _ => rfl) rfl decoded
  | 0x0F, decoded =>
    exact encode_of_five (fun _ _ _ _ _ => rfl) rfl (fun _ => rfl) (fun _ _ => rfl) (fun _ _ _ => rfl)
      (fun _ _ _ _ => rfl) (fun _ _ _ _ _ _ _ => rfl) (encode_report (f := .segmentDone) fun _ _ _ => rfl) decoded
  | 0x10, decoded =>
    exact encode_of_five (fun _ _ _ _ _ => rfl) rfl (fun _ => rfl) (fun _ _ => rfl) (fun _ _ _ => rfl)
      (fun _ _ _ _ => rfl) (fun _ _ _ _ _ _ _ => rfl) (encode_report (f := .segmentPaused) fun _ _ _ => rfl) decoded
  | 0x11, decoded => exact encode_of_segmentFault decoded
  | 0x12, decoded => exact encode_of_closeSlab decoded
  | 0x13, decoded => exact encode_of_openJob decoded
  | 0x14, decoded =>
    exact encode_of_number (f := .closeJob) (fun _ _ => rfl) rfl (fun _ => rfl) (fun _ _ _ _ => rfl) (fun _ => rfl) decoded
  | 0x15, decoded =>
    exact encode_of_number (f := .freeJob) (fun _ _ => rfl) rfl (fun _ => rfl) (fun _ _ _ _ => rfl) (fun _ => rfl) decoded
  | 0x16, decoded =>
    exact encode_of_number (f := .readJob) (fun _ _ => rfl) rfl (fun _ => rfl) (fun _ _ _ _ => rfl) (fun _ => rfl) decoded
  | 0x17, decoded => exact encode_of_bare rfl (fun _ _ => rfl) rfl decoded
  | 0x18, decoded => exact encode_of_bare rfl (fun _ _ => rfl) rfl decoded
  | 0x19, decoded => exact encode_of_bare rfl (fun _ _ => rfl) rfl decoded
  | 0x1A, decoded => exact encode_of_bare rfl (fun _ _ => rfl) rfl decoded
  | 0x1B, decoded => exact encode_of_setStation decoded
  | 0x1C, decoded => exact encode_of_writeConfig decoded
  | 0x1D, decoded => exact encode_of_writeCalibration decoded
  | 0x1E, decoded => exact encode_of_bare rfl (fun _ _ => rfl) rfl decoded
  | 0x1F, decoded => exact encode_of_bare rfl (fun _ _ => rfl) rfl decoded
  | n + 32, decoded => exact nomatch decoded

end Commands

end Sys2Proof.Machine

namespace Sys2Proof.Proofs

open Sys2Proof Sys2Proof.Machine Sys2Proof.Safety

/-- Settles O3: each command's frame by its kind, and each kind's frames by their bodies. -/
theorem hostCommandRoundTrip : Obligations.HostCommandRoundTrip := by
  refine ⟨fun c kind body wf encoded => ?_, fun straps kind body c decoded => encode_of_decode decoded⟩
  cases c with
  | restart k =>
    obtain ⟨rfl, rfl⟩ := Prod.mk.inj (Option.some.inj encoded)
    exact ⟨rfl, Nat.zero_le _, fun _ => rfl⟩
  | _ => exact spells_of_encode wf nofun encoded

end Sys2Proof.Proofs

/-! PROOF. The configuration block and the calibration region: written, voted, held within their ranges (O6). -/
namespace Sys2Proof.Machine

open Sys2Proof Sys2Proof.Safety

/-! ### Held within a range -/

theorem clampTo_range {lo hi : Nat} (bounds : lo ≤ hi) (v : Nat) : lo ≤ clampTo lo hi v ∧ clampTo lo hi v ≤ hi := by
  unfold clampTo
  omega

theorem held_clampTo {lo hi : Nat} (bounds : lo ≤ hi) (v : Nat) : heldWithin lo hi v (clampTo lo hi v) :=
  ⟨clampTo_of_lt, clampTo_of_gt bounds, clampTo_of_mem⟩

/-- R181: a value held within a range lies within it. -/
theorem held_self {lo hi v : Nat} (range : lo ≤ v ∧ v ≤ hi) : heldWithin lo hi v v :=
  ⟨fun low => absurd range.1 (Nat.not_le.mpr low), fun high => absurd range.2 (Nat.not_le.mpr high), fun _ _ => rfl⟩

theorem held_held {lo hi : Nat} (bounds : lo ≤ hi) (v : Nat) : heldWithin lo hi (clampTo lo hi v) (clampTo lo hi v) :=
  held_self (clampTo_range bounds v)

/-- R181, R127: the bounds that another field gives leave a range. -/
theorem dependent_bounds (c : ConfigFields) : clampTo 100 2000 c.fmin ≤ 8000 ∧ 1 ≤ clampTo 5 120 c.qnom ∧
    clampTo 1000 998999 c.threshold + 1000 ≤ 999999 := by
  have fmin := clampTo_range (show 100 ≤ 2000 by decide) c.fmin
  have qnom := clampTo_range (show 5 ≤ 120 by decide) c.qnom
  have threshold := clampTo_range (show 1000 ≤ 998999 by decide) c.threshold
  omega

theorem hardness_getD (hs : List Nat) {i : Nat} (within : i < hs.length) :
    (hs.map (clampTo 50 250)).getD i 0 = clampTo 50 250 (hs.getD i 0) := by
  rw [List.getD_eq_getElem _ _ within, List.getD_eq_getElem _ _ (by simpa using within), List.getElem_map]

/-- R181: every field as carried, held within its range. -/
theorem fieldsHeld_configClamped (c : ConfigFields) : fieldsHeld c (configClamped c) := by
  obtain ⟨fmax, qmin, hardLimit⟩ := dependent_bounds c
  refine ⟨held_clampTo (by decide) _, held_clampTo (by decide) _, held_clampTo (by decide) _, held_clampTo (by decide) _,
    held_clampTo fmax _, held_clampTo (by decide) _, held_clampTo (by decide) _, List.length_map _, fun i within => ?_,
    held_clampTo (by decide) _, held_clampTo qmin _, held_clampTo (by decide) _, held_clampTo (by decide) _,
    held_clampTo (by decide) _, held_clampTo (by decide) _, held_clampTo (by decide) _, held_clampTo (by decide) _,
    held_clampTo (by decide) _, held_clampTo (by decide) _, held_clampTo (by decide) _, held_clampTo (by decide) _,
    held_clampTo hardLimit _, held_clampTo (by decide) _, held_clampTo (by decide) _⟩
  have held : (configClamped c).hardness.getD i 0 = clampTo 50 250 (c.hardness.getD i 0) := hardness_getD _ within
  rw [held]
  exact held_clampTo (by decide) _

theorem fieldsHeld_self (c : ConfigFields) : fieldsHeld (configClamped c) (configClamped c) := by
  obtain ⟨fmax, qmin, hardLimit⟩ := dependent_bounds c
  refine ⟨held_held (by decide) _, held_held (by decide) _, held_held (by decide) _, held_held (by decide) _,
    held_held fmax _, held_held (by decide) _, held_held (by decide) _, rfl, fun i within => ?_,
    held_held (by decide) _, held_held qmin _, held_held (by decide) _, held_held (by decide) _,
    held_held (by decide) _, held_held (by decide) _, held_held (by decide) _, held_held (by decide) _,
    held_held (by decide) _, held_held (by decide) _, held_held (by decide) _, held_held (by decide) _,
    held_held hardLimit _, held_held (by decide) _, held_held (by decide) _⟩
  have held : (configClamped c).hardness.getD i 0 = clampTo 50 250 (c.hardness.getD i 0) :=
    hardness_getD _ (by simpa [configClamped] using within)
  rw [held]
  exact held_held (by decide) _

/-! ### The vote -/

/-- R181: two of three copies that hold a value. -/
def agree (copy : Nat → Nat) (v : Nat) : Prop := ∃ i j, i < j ∧ j < 3 ∧ copy i = v ∧ copy j = v

theorem vote_of_agree {copy : Nat → Nat} {v : Nat} (taken : agree copy v) :
    vote (copy 0) (copy 1) (copy 2) = some v := by
  obtain ⟨i, j, before, few, first, second⟩ := taken
  unfold vote
  split
  · next same =>
    obtain ⟨rfl, rfl⟩ | ⟨rfl, rfl⟩ | ⟨rfl, rfl⟩ : (i = 0 ∧ j = 1) ∨ (i = 0 ∧ j = 2) ∨ (i = 1 ∧ j = 2) := by omega
    · rw [first]
    · rw [first]
    · obtain same | same := same
      · rw [same, first]
      · rw [same, second]
  · next apart =>
    obtain ⟨rfl, rfl⟩ | ⟨rfl, rfl⟩ | ⟨rfl, rfl⟩ : (i = 0 ∧ j = 1) ∨ (i = 0 ∧ j = 2) ∨ (i = 1 ∧ j = 2) := by omega
    · exact absurd (.inl (first.trans second.symm)) apart
    · exact absurd (.inr (first.trans second.symm)) apart
    · rw [if_pos (first.trans second.symm), first]

theorem vote_isNone_iff (a b c : Nat) : (vote a b c).isNone = true ↔ a ≠ b ∧ a ≠ c ∧ b ≠ c := by
  unfold vote
  split
  · next same => exact iff_of_false (by simp) fun ⟨ab, ac, _⟩ => same.elim ab ac
  · next apart =>
    split
    · next same => exact iff_of_false (by simp) fun ⟨_, _, bc⟩ => bc same
    · next bc => exact iff_of_true rfl ⟨fun ab => apart (.inl ab), fun ac => apart (.inr ac), bc⟩

/-! ### A block as it was written -/

/-- 12: the fields of a block after the triplicated ones. -/
theorem bytes_of_blank (c : ConfigFields) :
    ({ c with rate := 0, supply := 0 } : ConfigFields).bytes = List.replicate 3 0 ++ c.bytes.drop 3 := by
  simp [ConfigFields.bytes, le16, u8]

theorem configOfBytes_drop {c : ConfigFields} (wf : c.wellFormed = true) (rest : List Byte) :
    configOfBytes (List.replicate 3 0 ++ (c.bytes.drop 3 ++ rest)) = { c with rate := 0, supply := 0 } := by
  have blank : ({ c with rate := 0, supply := 0 } : ConfigFields).wellFormed = true := by
    simp only [ConfigFields.wellFormed, Bool.and_eq_true] at wf ⊢
    simp [wf]
  rw [← List.append_assoc, ← bytes_of_blank, configOfBytes_bytes blank]

theorem vote_self (v : Nat) : vote v v v = some v := if_pos (.inl rfl)

theorem withCheck_split (bs : List Byte) : ∃ check, withCheck bs = bs ++ check := ⟨_, rfl⟩

theorem configPlaceBytes_split (c : ConfigFields) : ∃ check, configPlaceBytes c = [u8 c.rate] ++ ([u8 c.rate] ++
    ([u8 c.rate] ++ (le16 c.supply ++ (le16 c.supply ++ (le16 c.supply ++ (c.bytes.drop 3 ++ check)))))) := by
  obtain ⟨check, split⟩ := withCheck_split
    ([u8 c.rate, u8 c.rate, u8 c.rate] ++ le16 c.supply ++ le16 c.supply ++ le16 c.supply ++ c.bytes.drop 3)
  refine ⟨check, split.trans ?_⟩
  simp only [List.append_assoc, List.cons_append, List.nil_append]

/-- R181: a block as it was written is voted to the values carried. -/
theorem configVoted_written {c : ConfigFields} (wf : c.wellFormed = true) :
    configVoted (configPlaceBytes c) = (c, false) := by
  have rate : c.rate < 256 := by
    simp only [ConfigFields.wellFormed, Bool.and_eq_true, decide_eq_true_eq] at wf
    simp only [wf]
  have supply : c.supply < 65536 := by
    simp only [ConfigFields.wellFormed, Bool.and_eq_true, decide_eq_true_eq] at wf
    simp only [wf]
  obtain ⟨check, whole⟩ := configPlaceBytes_split c
  have tail : (configPlaceBytes c).drop 9 = c.bytes.drop 3 ++ check := by
    rw [whole]
    simp only [le16, List.cons_append, List.nil_append, List.drop_succ_cons, List.drop_zero]
  rw [configVoted, tail, configOfBytes_drop wf, whole]
  simp only [byteAt_append_right, u16At_append_right, le16_length, List.length_singleton, byteAt_u8, u16At_le16,
    Nat.reduceLeDiff, Nat.reduceSub, le_refl, Nat.sub_self, Nat.mod_eq_of_lt rate, Nat.mod_eq_of_lt supply, vote_self,
    Option.getD_some, Option.isNone_some, Bool.or_self]

/-- 12: the calibration region is read back as it was written. -/
theorem calibration_read {kr kf : Nat} (kr8 : kr < 256) (kf8 : kf < 256) :
    byteAt (calibrationPlaceBytes (kr, kf)) 0 = kr ∧ byteAt (calibrationPlaceBytes (kr, kf)) 1 = kf := by
  have first : byteAt [u8 kr, u8 kf] 0 = kr := (byteAt_u8 kr [u8 kf]).trans (Nat.mod_eq_of_lt kr8)
  have second : byteAt [u8 kr, u8 kf] 1 = kf := (byteAt_u8 kf []).trans (Nat.mod_eq_of_lt kf8)
  exact ⟨(byteAt_withCheck (by simp)).trans first, (byteAt_withCheck (by simp)).trans second⟩

/-! ### The bytes a block is read from -/

theorem byteAt_take {bs : List Byte} {i n : Nat} (within : i < n) : byteAt (bs.take n) i = byteAt bs i := by
  rw [byteAt, byteAt, List.getD_eq_getElem?_getD, List.getD_eq_getElem?_getD, List.getElem?_take_of_lt within]

theorem u16At_take {bs : List Byte} {i n : Nat} (within : i + 1 < n) : u16At (bs.take n) i = u16At bs i := by
  rw [u16At, u16At, byteAt_take (by omega), byteAt_take within]

theorem u32At_take {bs : List Byte} {i n : Nat} (within : i + 3 < n) : u32At (bs.take n) i = u32At bs i := by
  rw [u32At, u32At, u16At_take (by omega), u16At_take (by omega)]

/-- 12: the fields of a block are its first 46 bytes. -/
theorem configOfBytes_take (bs : List Byte) : configOfBytes (bs.take 46) = configOfBytes bs := by
  have hardness : (List.range 8).map (fun i => byteAt (bs.take 46) (11 + i)) =
      (List.range 8).map fun i => byteAt bs (11 + i) :=
    List.map_congr_left fun i mem => byteAt_take (by have := List.mem_range.mp mem; omega)
  simp only [configOfBytes, hardness, byteAt_take, u16At_take, u32At_take, Nat.reduceLT, Nat.reduceAdd]

/-- R181: a block is voted on its first 52 bytes. -/
theorem configVoted_congr {block config : List Byte} (same : block.take 52 = config.take 52) :
    configVoted block = configVoted config := by
  have byte {i : Nat} (within : i < 52) : byteAt block i = byteAt config i := by
    rw [← byteAt_take within, same, byteAt_take within]
  have half {i : Nat} (within : i + 1 < 52) : u16At block i = u16At config i := by
    rw [← u16At_take within, same, u16At_take within]
  have fields : (List.replicate 3 0 ++ block.drop 9).take 46 = (List.replicate 3 0 ++ config.drop 9).take 46 := by
    have rest (bs : List Byte) : (bs.drop 9).take 43 = (bs.take 52).drop 9 := by rw [List.drop_take]
    simp only [List.take_append, List.length_replicate, Nat.reduceSub, rest, same]
  rw [configVoted, configVoted, ← configOfBytes_take, fields, configOfBytes_take, byte (i := 0) (by decide),
    byte (i := 1) (by decide), byte (i := 2) (by decide), half (i := 3) (by decide), half (i := 5) (by decide),
    half (i := 7) (by decide)]

end Sys2Proof.Machine

namespace Sys2Proof.Proofs

open Sys2Proof Sys2Proof.Machine Sys2Proof.Safety

/-- Settles O6: a block written is voted to what it carries, and every field is clamped into its range. -/
theorem writtenSettingsAreReadClamped : Obligations.WrittenSettingsAreReadClamped := by
  refine ⟨fun c kr kf wf kr8 kf8 => ?_, fun config calibration => ?_, fun config calibration => ?_⟩
  · intro t
    obtain ⟨recycled, fresh⟩ := calibration_read kr8 kf8
    have good : goodCheck (configPlaceBytes c) = true := goodCheck_withCheck _
    have good' : goodCheck (calibrationPlaceBytes (kr, kf)) = true := goodCheck_withCheck _
    have read : t = { cfg := configClamped c, kRecycled := clampTo 10 250 kr, kFresh := clampTo 10 250 kf
                      clamped := configClamped c != c || clampTo 10 250 kr != kr || clampTo 10 250 kf != kf
                      degraded := false } := by
      simp only [t, settingsOf, configVoted_written wf, recycled, fresh, good, good', Bool.not_true, Bool.or_self]
    rw [read]
    exact ⟨rfl, fieldsHeld_configClamped c, held_clampTo (by decide) kr, held_clampTo (by decide) kf⟩
  · exact ⟨fieldsHeld_self _, held_held (by decide) _, held_held (by decide) _⟩
  · intro t rate supply taken differ
    have rates : t.cfg.rate = clampTo 0 2 ((vote (rate 0) (rate 1) (rate 2)).getD 0) := rfl
    have supplies : t.cfg.supply = clampTo 10 2000 ((vote (supply 0) (supply 1) (supply 2)).getD 10) := rfl
    refine ⟨fun v two => ?_, fun apart => ?_, fun v two => ?_, fun apart => ?_, ?_, fun block region same same' => ?_⟩
    · rw [rates, vote_of_agree two]
      exact held_clampTo (by decide) v
    · rw [rates, Option.isNone_iff_eq_none.mp ((vote_isNone_iff ..).mpr apart)]
      rfl
    · rw [supplies, vote_of_agree two]
      exact held_clampTo (by decide) v
    · rw [supplies, Option.isNone_iff_eq_none.mp ((vote_isNone_iff ..).mpr apart)]
      rfl
    · have degraded : t.degraded = ((vote (rate 0) (rate 1) (rate 2)).isNone ||
          (vote (supply 0) (supply 1) (supply 2)).isNone || !goodCheck config || !goodCheck calibration) := rfl
      rw [degraded]
      simp only [Bool.or_eq_true, vote_isNone_iff, Bool.not_eq_true', or_assoc]
      rfl
    · have first : byteAt region 0 = byteAt calibration 0 := by
        rw [← byteAt_take (n := 2) (by decide), same', byteAt_take (by decide)]
      have second : byteAt region 1 = byteAt calibration 1 := by
        rw [← byteAt_take (n := 2) (by decide), same', byteAt_take (by decide)]
      simp only [t, settingsOf, configVoted_congr same, first, second]

end Sys2Proof.Proofs
